-- ==== Sys2Proof/Word.lean ====
section
/-!
DEFINITION. The words of the encoder block: the byte, the 6-bit code and the two token formats of
30_encoding.md (R61, R62), a token together with the link it stands on (R60), and the three reasons a
word is illegal (R68, R69). No value of the block is signed (R8).
-/

namespace Sys2Proof

/-- A byte, or a character on a port: `BYTE_W` bits (R7). -/
abbrev Byte := BitVec 8

/-- A code in [0, 63]: `CODE_W` bits (R6, R7). -/
abbrev Code := BitVec 6

/-- `TOK8`, the 10-bit token of `IN`, `DF2PK` and `OUT` (R61). -/
abbrev Tok8 := BitVec 10

/-- `TOK6`, the 8-bit token of `PK2MP` (R62). -/
abbrev Tok6 := BitVec 8

/-- A token word on one of the three links the block decodes (R60, R66). The link alone gives the
format (R70); the word does not say which link it is on. -/
inductive LinkToken where
  /-- a word the host offers on `IN` -/
  | onIn (t : Tok8)
  /-- a word on the link from the compressor to the packer -/
  | onDf2pk (t : Tok8)
  /-- a word on the link from the packer to the mapper -/
  | onPk2mp (t : Tok6)
deriving DecidableEq, Repr

/-- Why a word selects no operation of its link (R68, R69). -/
inductive Reject where
  /-- a word of kind `0b11` on `IN` -/
  | reservedKind
  /-- an END or ABORT word on `IN` whose data field is not zero -/
  | ctrlDataNonzero
  /-- a word other than the legal DATA and END on `DF2PK` or `PK2MP` -/
  | internalKind
deriving DecidableEq, Repr

end Sys2Proof
end

