-- ==== Sys2Proof/Config.lean ====
section
/-!
DEFINITION. What is fixed when the block is built and left open by the spec: the compressor's
function `DEFLATE_FN` (00_scope.md R7, 41_deflate.md R100); its reference value `DEFLATE_REF` (R103); and
the named properties a claim may assume of it (R107), none of which the model assumes. The other open parameter, `MAX_PAYLOAD`, is the
field `maxPayload` of State (log 5). `PLATFORM_MAP` is read by no rule (R49).
-/

namespace Sys2Proof.Config

/-- `DEFLATE_FN`: the output of the external compressor for a whole payload (R100). It is a total
function of the payload alone and nothing else is known of it: OPEN in the spec (92_eei_decisions.md
D6), so it has no body here (log 4). -/
opaque deflateFn : List Byte → List Byte

/-- The reference vectors of `DEFLATE_REF`, payload and compressed bytes: the table of R103, and the row
V2.9 of 95_test_vectors.md, computed with the same compressor. -/
def referenceVectors : List (List Byte × List Byte) :=
  [ ([], [0x03, 0x00]),
    ([0xFF], [0xFB, 0x0F, 0x00]),
    ([0x00], [0x63, 0x00, 0x00]),
    ([0x41], [0x73, 0x04, 0x00]),
    (List.replicate 10 0x61, [0x4B, 0x4C, 0x84, 0x01, 0x00]),
    ([0x00, 0x01, 0x02, 0x03, 0x04, 0x05, 0x06, 0x07],
      [0x63, 0x60, 0x64, 0x62, 0x66, 0x61, 0x65, 0x63, 0x07, 0x00]) ] ++
  [ ([0x40, 0x73, 0x74, 0x61, 0x72, 0x74, 0x75, 0x6D, 0x6C, 0x0A, 0x40, 0x65, 0x6E, 0x64, 0x75,
        0x6D, 0x6C],
      [0x73, 0x28, 0x2E, 0x49, 0x2C, 0x2A, 0x29, 0xCD, 0xCD, 0xE1, 0x72, 0x48, 0xCD, 0x4B, 0x01,
        0xD2, 0x00]) ] ++
  [ ([0x40, 0x73, 0x74, 0x61, 0x72, 0x74, 0x75, 0x6D, 0x6C, 0x0A, 0x42, 0x6F, 0x62, 0x20, 0x2D,
        0x3E, 0x20, 0x41, 0x6C, 0x69, 0x63, 0x65, 0x20, 0x3A, 0x20, 0x68, 0x65, 0x6C, 0x6C, 0x6F,
        0x0A, 0x40, 0x65, 0x6E, 0x64, 0x75, 0x6D, 0x6C],
      [0x73, 0x28, 0x2E, 0x49, 0x2C, 0x2A, 0x29, 0xCD, 0xCD, 0xE1, 0x72, 0xCA, 0x4F, 0x52, 0xD0,
        0xB5, 0x53, 0x70, 0xCC, 0xC9, 0x4C, 0x4E, 0x55, 0xB0, 0x52, 0xC8, 0x48, 0xCD, 0xC9, 0xC9,
        0xE7, 0x72, 0x48, 0xCD, 0x4B, 0x01, 0x4A, 0x02, 0x00]) ] ++
  [ ([0xFF, 0x00, 0xFF], [0xFB, 0xCF, 0xF0, 0x1F, 0x00]) ]

/-- The raw stream that the reference library gives for a payload outside the reference vectors. The
spec names the library and its settings (R103) and neither defines it nor lists these bytes, so there is
no body (log 14). -/
opaque libraryRaw : List Byte → List Byte

/-- `DEFLATE_REF` (R103): a total function, with the bytes of the reference vectors where the spec lists
them. -/
def deflateRef (p : List Byte) : List Byte :=
  match referenceVectors.find? fun v => v.1 == p with
  | some v => v.2
  | none => libraryRaw p

/-- Inflating a raw stream: the payload it decodes to, or none. The block has no decompressor (R106)
and the spec does not define one, so there is no body (log 14). -/
opaque inflate : List Byte → Option (List Byte)

/-- The property `DF_REF` (R107): the compressor is the reference one. -/
def DfRef : Prop := deflateFn = deflateRef

/-- The property `DF_NONEMPTY` (R107): every compressed payload has a byte. -/
def DfNonempty : Prop := ∀ p, 1 ≤ (deflateFn p).length

/-- The property `DF_INVERTIBLE` (R107): inflating the compressed payload gives the payload. -/
def DfInvertible : Prop := ∀ p, inflate (deflateFn p) = some p

end Sys2Proof.Config
end

