-- ==== Sys2Proof/Syntax.lean ====
section
/-!
DEFINITION. The operations the block decodes, one constructor per row of spec/opcode_table.json
(30_encoding.md R66). The operand types have exactly the widths of the token's data field, so every
term is an instruction the encoding admits.
-/

namespace Sys2Proof

/-- The seven operations of R66. -/
inductive Instr where
  /-- `IN.DATA b`: append one payload byte (R81) -/
  | inData (b : Byte)
  /-- `IN.END`: end the payload, start the encoding (R82) -/
  | inEnd
  /-- `IN.ABORT`: discard the payload (R83) -/
  | inAbort
  /-- `PK.DATA b`: the packer takes one compressed byte (R122) -/
  | pkData (b : Byte)
  /-- `PK.END`: the packer flushes a partial group (R123) -/
  | pkEnd
  /-- `MP.DATA k`: the mapper emits the character of one code (R141) -/
  | mpData (k : Code)
  /-- `MP.END`: the mapper emits the end of the message (R142) -/
  | mpEnd
deriving DecidableEq, Repr

end Sys2Proof
end

