-- ==== Sys2Proof/WellFormed.lean ====
section
/-!
DEFINITION. Which token words are legal on which link (30_encoding.md R64), as ranges of the word,
written without the decoder so that the two can be held against each other. Every term of `Instr` is
well-formed by its operand types (R65); what can be ill-formed is a word on a link. The legal words of
`OUT`, which the block only produces, are in Safety.lean.
-/

namespace Sys2Proof

/-- `IN`: DATA with any data, END with data 0, ABORT with data 0 (R64). -/
def legalOnIn (t : Tok8) : Bool :=
  decide (t.toNat ≤ 0x0FF) || t == 0x100#10 || t == 0x200#10

/-- `DF2PK`: DATA with any data, END with data 0 (R64). -/
def legalOnDf2pk (t : Tok8) : Bool :=
  decide (t.toNat ≤ 0x0FF) || t == 0x100#10

/-- `PK2MP`: DATA with any code, END with data 0 (R64). -/
def legalOnPk2mp (t : Tok6) : Bool :=
  decide (t.toNat ≤ 0x3F) || t == 0x40#8

/-- The legal tokens of the three decoded links (R64). -/
def LinkToken.legal : LinkToken → Bool
  | .onIn t => legalOnIn t
  | .onDf2pk t => legalOnDf2pk t
  | .onPk2mp t => legalOnPk2mp t

end Sys2Proof
end

