-- ==== Sys2Proof/Decode.lean ====
section
/-!
DEFINITION. The fields of a token, the decoder of each link and the encoder (30_encoding.md R61-R70).
Decoding is total: a word that selects no row of R66 is rejected with the reason R68 or R69 names.
-/

namespace Sys2Proof

/-! ## Fields (R61, R62, R65) -/

/-- `kind = t[9:8]` of a `TOK8` (R61). -/
def kind8 (t : Tok8) : BitVec 2 := t.extractLsb' 8 2

/-- `byte = t[7:0]` of a `TOK8` (R65). -/
def data8 (t : Tok8) : Byte := t.extractLsb' 0 8

/-- `kind = t[7:6]` of a `TOK6` (R62). -/
def kind6 (t : Tok6) : BitVec 2 := t.extractLsb' 6 2

/-- `code = t[5:0]` of a `TOK6` (R65). -/
def data6 (t : Tok6) : Code := t.extractLsb' 0 6

/-- The kind code DATA (R63). -/
def kindData : BitVec 2 := 0b00#2

/-- The kind code END (R63). -/
def kindEnd : BitVec 2 := 0b01#2

/-- The kind code ABORT, legal on `IN` only (R63). -/
def kindAbort : BitVec 2 := 0b10#2

/-! ## Token words -/

/-- `{0b00, b}` as a `TOK8` (R61). -/
def dataTok8 (b : Byte) : Tok8 := kindData ++ b

/-- `{0b01, 0x00}`, the END token of a `TOK8` link (R61). -/
def endTok8 : Tok8 := kindEnd ++ 0x00#8

/-- `{0b10, 0x00}`, the ABORT token of `IN` (R61). -/
def abortTok8 : Tok8 := kindAbort ++ 0x00#8

/-- `{0b00, k}` as a `TOK6` (R62). -/
def dataTok6 (k : Code) : Tok6 := kindData ++ k

/-- `{0b01, 0b000000}`, the END token of `PK2MP` (R62). -/
def endTok6 : Tok6 := kindEnd ++ 0b000000#6

/-! ## Decoding -/

/-- Decode a word on `IN`: the six classes of R67. -/
def decodeIn (t : Tok8) : Except Reject Instr :=
  if kind8 t = kindData then .ok (.inData (data8 t))
  else if kind8 t = kindEnd then
    if data8 t = 0x00#8 then .ok .inEnd else .error .ctrlDataNonzero
  else if kind8 t = kindAbort then
    if data8 t = 0x00#8 then .ok .inAbort else .error .ctrlDataNonzero
  else .error .reservedKind

/-- Decode a word on `DF2PK` (R66, R69, R102). -/
def decodeDf2pk (t : Tok8) : Except Reject Instr :=
  if kind8 t = kindData then .ok (.pkData (data8 t))
  else if t = endTok8 then .ok .pkEnd
  else .error .internalKind

/-- Decode a word on `PK2MP` (R66, R69, R141). -/
def decodePk2mp (t : Tok6) : Except Reject Instr :=
  if kind6 t = kindData then .ok (.mpData (data6 t))
  else if t = endTok6 then .ok .mpEnd
  else .error .internalKind

/-- Decode a token on its link (R66). -/
def decode : LinkToken → Except Reject Instr
  | .onIn t => decodeIn t
  | .onDf2pk t => decodeDf2pk t
  | .onPk2mp t => decodePk2mp t

/-! ## Encoding -/

/-- The token of an instruction, on its link (the encoding column of R66). -/
def encode : Instr → LinkToken
  | .inData b => .onIn (dataTok8 b)
  | .inEnd => .onIn endTok8
  | .inAbort => .onIn abortTok8
  | .pkData b => .onDf2pk (dataTok8 b)
  | .pkEnd => .onDf2pk endTok8
  | .mpData k => .onPk2mp (dataTok6 k)
  | .mpEnd => .onPk2mp endTok6

/-! ## The opcode table's numbering -/

/-- The token that `nbits` bits `w` are, where a word is given without its link: 8 bits are a `TOK6`
on `PK2MP`, 10 bits (16 in whole bytes) a `TOK8` offered on `IN`, the link on which tokens come from
outside. DESIGN CHOICE (log 8): the rows of `DF2PK` have the words of `IN`, and nothing in a word
tells the two links apart (R60, R66). -/
def tableToken (nbits w : Nat) : Option LinkToken :=
  if nbits = 8 then
    if w < 0x100 then some (.onPk2mp (BitVec.ofNat 8 w)) else none
  else if nbits = 10 ∨ nbits = 16 then
    if w < 0x400 then some (.onIn (BitVec.ofNat 10 w)) else none
  else none

/-- The instruction the decoder reads from a word numbered as spec/opcode_table.json numbers it. -/
def decodeTableWord (nbits w : Nat) : Option Instr :=
  match tableToken nbits w with
  | some lt => (decode lt).toOption
  | none => none

end Sys2Proof
end

