-- ==== Sys2Proof/Machine/Operands.lean ====
section
/-!
DEFINITION. The data transforms the operations use: the packer's group layout (42_packer.md R121) and
the alphabet (43_mapper.md R140).
-/

namespace Sys2Proof.Machine

/-- `GROUP(b1, b2, b3)`: the four codes of a group, most significant bits first (R121, R43). -/
def group (b1 b2 b3 : Byte) : List Code :=
  let c1 : Code := b1.extractLsb' 2 6
  let c2 : Code := b1.extractLsb' 0 2 ++ b2.extractLsb' 4 4
  let c3 : Code := b2.extractLsb' 0 4 ++ b3.extractLsb' 6 2
  let c4 : Code := b3.extractLsb' 0 6
  [c1, c2, c3, c4]

/-- The 64 characters of the alphabet, in order (R140). A constant: nothing writes it (R30, R145). -/
def alphabet : List Char :=
  ['0', '1', '2', '3', '4', '5', '6', '7', '8', '9'] ++
  ['A', 'B', 'C', 'D', 'E', 'F', 'G', 'H', 'I', 'J', 'K', 'L', 'M'] ++
  ['N', 'O', 'P', 'Q', 'R', 'S', 'T', 'U', 'V', 'W', 'X', 'Y', 'Z'] ++
  ['a', 'b', 'c', 'd', 'e', 'f', 'g', 'h', 'i', 'j', 'k', 'l', 'm'] ++
  ['n', 'o', 'p', 'q', 'r', 's', 't', 'u', 'v', 'w', 'x', 'y', 'z'] ++
  ['-', '_']

/-- The alphabet has an entry for every code. -/
theorem alphabet_length : alphabet.length = 2 ^ 6 := rfl

/-- `ALPHA(k)`: the character at index `k` (R140). -/
def alpha (k : Code) : Char := alphabet[k.toNat]'(alphabet_length ▸ k.isLt)

/-- `ALPHA_CODE(k)`: the 8-bit ASCII code of `ALPHA(k)`, its code on `OUT` (R140). -/
def alphaCode (k : Code) : Byte := BitVec.ofNat 8 (alpha k).toNat

/-- The words `DF_OUTQ` is filled with for compressed bytes `c`: one DATA word a byte, then END
(R101). -/
def compressedTokens (c : List Byte) : List Tok8 := c.map dataTok8 ++ [endTok8]

end Sys2Proof.Machine
end

