-- ==== Sys2Proof/Machine/State.lean ====
section
/-!
DEFINITION. The architectural state of the encoder block (10_state.md), the host's side of its ports as
plain data (log 1), the reasons a step could stop, and the state after power-on (R34, R181).
-/

namespace Sys2Proof.Machine

/-- `PHASE` (R22). The code `0b11` is never held, so it is no value of the type (log 6). -/
inductive Phase where
  /-- `0b00`: no message in progress -/
  | idle
  /-- `0b01`: receiving a payload -/
  | recv
  /-- `0b10`: emitting the message -/
  | drain
deriving DecidableEq, Repr

/-- `FAULT_CAUSE` (R24, R160). -/
inductive FaultCause where
  /-- `0b00`: no fault since reset -/
  | none
  /-- `0b01` -/
  | reservedKind
  /-- `0b10` -/
  | ctrlDataNonzero
  /-- `0b11` -/
  | internalKind
deriving DecidableEq, Repr

/-- What the host does at its side of the block in one step (R80, R174; log 1). -/
inductive HostAction where
  /-- it offers the first token it holds on `IN` -/
  | offer
  /-- it takes a token on `OUT`, if the block emits one -/
  | take
  /-- it does nothing -/
  | hold
  /-- it asserts `RST` -/
  | reset
deriving DecidableEq, Repr

/-- The step the block takes: a row of the table of R80, with the token it moves. -/
inductive StepKind where
  /-- the reset step (R180) -/
  | reset
  /-- accept the token on `IN` (R81, R82, R83, R68) -/
  | acceptIn (t : Tok8)
  /-- `DF.EMIT`: hand the token to the packer (R102) -/
  | dfEmit (t : Tok8)
  /-- the `OUT` step: the mapper takes the token (R141, R142) -/
  | emitOut (t : Tok6)
  /-- no step is enabled: the block waits (R80) -/
  | wait
deriving DecidableEq, Repr

/-- The state of the block, and of the host's side of its ports. -/
structure State where
  /-- `PHASE` (R22) -/
  phase : Phase
  /-- `FAULT` (R23) -/
  fault : Bool
  /-- `FAULT_CAUSE` (R24) -/
  faultCause : FaultCause
  /-- `FAULT_TOKEN` (R24) -/
  faultToken : BitVec 10
  /-- `DF_BUF` (R25), in arrival order -/
  dfBuf : List Byte
  /-- `DF_OUTQ` (R26), head first -/
  dfOutq : List Tok8
  /-- `PK_CNT` (R27). The value 3 is never held, so it is no value of the type (log 6). -/
  pkCnt : Fin 3
  /-- `PK_B1` (R28) -/
  pkB1 : Byte
  /-- `PK_B2` (R28) -/
  pkB2 : Byte
  /-- `PK_OUTQ` (R29), head first -/
  pkOutq : List Tok6
  /-- the MODEL's own: the tokens the host holds for `IN`, the offered one first (R185; log 1) -/
  inPort : List Tok8
  /-- the MODEL's own: the tokens emitted on `OUT`, oldest first (R86; log 1) -/
  out : List Tok8
  /-- the MODEL's own: what the host does in the next steps (R80, R174; log 1) -/
  host : List HostAction
  /-- the MODEL's own: the build parameter `MAX_PAYLOAD`, `none` for infinity (R7; log 5) -/
  maxPayload : Option Nat
deriving DecidableEq, Repr

/-- The reasons the machine could stop with a fault: there is none. The faults of the spec are not
stops: `raise Fault` gives a next state in which the fault fields are written (R161), and a faulted
block waits for reset (R162). Safe: no behaviour is cut off (log 12). -/
inductive Fault where
deriving DecidableEq, Repr

/-- The reasons an instruction could be refused. -/
inductive Refusal where
  /-- An instruction of the opcode table without a meaning. Nothing raises it: every arm of `exec`
  calls a meaning. Safe: a refusal ends the run and proves nothing. -/
  | notModelled (mnemonic : String)
deriving DecidableEq, Repr

/-- The machine at power-on, every register at the value of the table of R34. The fields of the
host's side are empty, and `MAX_PAYLOAD` is infinite, the value of the reference model (R7):
DESIGN CHOICE (logs 1, 5). -/
def State.reset : State where
  phase := .idle
  fault := false
  faultCause := .none
  faultToken := 0x000#10
  dfBuf := []
  dfOutq := []
  pkCnt := 0
  pkB1 := 0x00#8
  pkB2 := 0x00#8
  pkOutq := []
  inPort := []
  out := []
  host := []
  maxPayload := none

end Sys2Proof.Machine
end

