-- ==== Sys2Proof/Machine/Flags.lean ====
section
/-!
DEFINITION. What is computed from the state and never stored: the STATUS word (10_state.md R31), the
IN_READY signal (R32), and when a token may be taken from each internal link (40_encoder.md R80).
-/

namespace Sys2Proof.Machine

/-- The code of PHASE in STATUS (R22). -/
def phaseBits : Phase → BitVec 2
  | .idle => 0b00#2
  | .recv => 0b01#2
  | .drain => 0b10#2

/-- The code of FAULT_CAUSE in STATUS (R160). -/
def causeBits : FaultCause → BitVec 2
  | .none => 0b00#2
  | .reservedKind => 0b01#2
  | .ctrlDataNonzero => 0b10#2
  | .internalKind => 0b11#2

/-- `STATUS`: FAULT_TOKEN in `[15:6]`, bit 5 zero, FAULT_CAUSE in `[4:3]`, FAULT in `[2]`, PHASE in
`[1:0]` (R31). Reading it changes nothing (R48): it is a function of the state. -/
def State.status (s : State) : BitVec 16 :=
  s.faultToken ++ 0b0#1 ++ causeBits s.faultCause ++ BitVec.ofBool s.fault ++ phaseBits s.phase

/-- The payload buffer is full: `len(DF_BUF) = MAX_PAYLOAD` (R32). -/
def State.bufferFull (s : State) : Bool := s.maxPayload == some s.dfBuf.length

/-- `IN_READY(t)`: the block accepts `t` on `IN` in this state (R32). -/
def State.inReady (s : State) (t : Tok8) : Bool :=
  !s.fault && s.phase != .drain && !(kind8 t == kindData && s.bufferFull)

/-- The packer may take a token offered on `DF2PK`: its queue is empty (R122, R186) and the block is not
faulted (R162). PHASE is not asked: the packer's unit tests offer it tokens in the reset state (R71;
95_test_vectors.md section 2.3; log 7). -/
def State.packerReady (s : State) : Bool := !s.fault && s.pkOutq.isEmpty

/-- What `DF.EMIT` requires beside a token to take (R80, R102): the packer may take one, in DRAIN. -/
def State.dfEmitReady (s : State) : Bool := s.packerReady && s.phase == .drain

/-- The mapper may take a token: what the `OUT` step requires beside a token to take and the host's
take (R141, R80). -/
def State.mapperReady (s : State) : Bool := !s.fault

end Sys2Proof.Machine
end

