-- ==== Sys2Proof/Machine/Ops.lean ====
section
/-!
DEFINITION. The named operations over the state: raising a fault (60_exceptions.md R161) and the only
way out of it, reset (70_reset_and_hazards.md R180); the writes of the seven operations; taking a token
from a link; and the choice of the step the block takes (40_encoder.md R80).
-/

namespace Sys2Proof.Machine

/-! ## Faults and reset -/

/-- The cause a rejected word records (R68, R69, R160). -/
def rejectCause : Reject → FaultCause
  | .reservedKind => .reservedKind
  | .ctrlDataNonzero => .ctrlDataNonzero
  | .internalKind => .internalKind

/-- The token as FAULT_TOKEN records it, zero-extended to 10 bits (R24, R161). -/
def tokenWord : LinkToken → BitVec 10
  | .onIn t => t
  | .onDf2pk t => t
  | .onPk2mp t => t.setWidth 10

/-- `raise Fault(cause, t)` (R161): nothing but the three fault fields is written. -/
def State.raiseFault (s : State) (cause : FaultCause) (t : BitVec 10) : State :=
  { s with fault := true, faultCause := cause, faultToken := t }

/-- The reset step (R180): every piece of state of R34 takes its reset value. Nothing is emitted on
`OUT` or consumed from `IN`; the host's side of the ports and the build parameter are not the
block's to reset (log 10). -/
def State.rst (s : State) : State :=
  { State.reset with inPort := s.inPort, out := s.out, host := s.host, maxPayload := s.maxPayload }

/-! ## The writes of the IN operations -/

/-- `DF_BUF <- DF_BUF ++ [b]; PHASE <- RECV` (R81). -/
def State.appendPayload (s : State) (b : Byte) : State :=
  { s with dfBuf := s.dfBuf ++ [b], phase := .recv }

/-- Compress (R101): the whole payload through `DEFLATE_FN`, in this one step. -/
def State.compress (s : State) : State :=
  { s with dfOutq := compressedTokens (Config.deflateFn s.dfBuf), dfBuf := [] }

/-- `PHASE <- p`. -/
def State.enterPhase (s : State) (p : Phase) : State :=
  { s with phase := p }

/-- `DF_BUF <- []` (R83). -/
def State.clearPayload (s : State) : State :=
  { s with dfBuf := [] }

/-! ## The writes of the packer -/

/-- The first byte of a group: `PK_B1 <- b; PK_CNT <- 1` (R122). -/
def State.holdFirst (s : State) (b : Byte) : State :=
  { s with pkB1 := b, pkCnt := 1 }

/-- The second byte of a group: `PK_B2 <- b; PK_CNT <- 2` (R122). -/
def State.holdSecond (s : State) (b : Byte) : State :=
  { s with pkB2 := b, pkCnt := 2 }

/-- `PK_OUTQ <- q`, and the packer holds no byte: `PK_B1 <- 0x00; PK_B2 <- 0x00; PK_CNT <- 0`
(R122, R123). -/
def State.queueTokens (s : State) (q : List Tok6) : State :=
  { s with pkOutq := q, pkB1 := 0x00#8, pkB2 := 0x00#8, pkCnt := 0 }

/-- The packer takes one compressed byte (R122, the case on PK_CNT). -/
def State.packByte (s : State) (b : Byte) : State :=
  match s.pkCnt with
  | 0 => s.holdFirst b
  | 1 => s.holdSecond b
  | 2 => s.queueTokens ((group s.pkB1 s.pkB2 b).map dataTok6)

/-- The codes of the partial group the packer holds, missing bytes as zero; none where it holds no
byte (R123, R127). -/
def State.partialGroup (s : State) : List Code :=
  match s.pkCnt with
  | 0 => []
  | 1 => group s.pkB1 0x00#8 0x00#8
  | 2 => group s.pkB1 s.pkB2 0x00#8

/-- The packer flushes its partial group and queues END (R123). -/
def State.flushGroup (s : State) : State :=
  s.queueTokens (s.partialGroup.map dataTok6 ++ [endTok6])

/-! ## OUT -/

/-- `emit OUT t` (R10, R86). -/
def State.emit (s : State) (t : Tok8) : State :=
  { s with out := s.out ++ [t] }

/-! ## Taking a token from its link -/

/-- The host's action of this step is over. -/
def State.popHost (s : State) : State :=
  { s with host := s.host.tail }

/-- `accept IN t`: the offered token leaves the host (R10, R48). -/
def State.popIn (s : State) : State :=
  { s with inPort := s.inPort.tail }

/-- `DF_OUTQ <- pop(DF_OUTQ)` (R102). -/
def State.popDfOutq (s : State) : State :=
  { s with dfOutq := s.dfOutq.tail }

/-- `PK_OUTQ <- pop(PK_OUTQ)` (R141). -/
def State.popPkOutq (s : State) : State :=
  { s with pkOutq := s.pkOutq.tail }

/-! ## The choice of the step -/

/-- The step the block can take by itself: `DF.EMIT` where it is enabled (R80, R102), else none. -/
def State.ownStep (s : State) : StepKind :=
  match s.dfOutq with
  | t :: _ => if s.dfEmitReady then .dfEmit t else .wait
  | [] => .wait

/-- The step the block takes (R80): reset whenever it is asserted (R164); else the step the host's
action enables; else the block's own. Accepting needs PHASE other than DRAIN, `DF.EMIT` needs DRAIN and
an empty `PK_OUTQ`, the `OUT` step a token in `PK_OUTQ`: so `DF.EMIT` never competes, and the host's list
settles the rest (log 3). -/
def State.chosenStep (s : State) : StepKind :=
  match s.host with
  | .reset :: _ => .reset
  | .offer :: _ =>
    match s.inPort with
    | t :: _ => if s.inReady t then .acceptIn t else s.ownStep
    | [] => s.ownStep
  | .take :: _ =>
    match s.pkOutq with
    | t :: _ => if s.mapperReady then .emitOut t else s.ownStep
    | [] => s.ownStep
  | .hold :: _ => s.ownStep
  | [] => s.ownStep

end Sys2Proof.Machine
end

