-- ==== Sys2Proof/Machine/Encoder.lean ====
section
/-!
DEFINITION. The three operations a host performs on `IN` (40_encoder.md R81-R83). `exec i s` is the
effect of the token of `i` offered on its link in `s`; the step takes the token off the link. A token
the block does not accept leaves the block as it is, and the step leaves it with the host (R32; log 7).
-/

namespace Sys2Proof.Machine

/-- `IN.DATA b` (R81). -/
def execInData (b : Byte) (s : State) : Host.Outcome State Fault Refusal :=
  if s.inReady (dataTok8 b) then .next (s.appendPayload b) else .next s

/-- `IN.END` (R82), with the compression of R101. -/
def execInEnd (s : State) : Host.Outcome State Fault Refusal :=
  if s.inReady endTok8 then .next (s.compress.enterPhase .drain) else .next s

/-- `IN.ABORT` (R83). -/
def execInAbort (s : State) : Host.Outcome State Fault Refusal :=
  if s.inReady abortTok8 then .next (s.clearPayload.enterPhase .idle) else .next s

end Sys2Proof.Machine
end

