-- ==== Sys2Proof/Machine/Mapper.lean ====
section
/-!
DEFINITION. The two operations of the alphabet_mapper (43_mapper.md R141, R142), performed in the
`OUT` step, in which the host takes the emitted token. While FAULT is 1 the mapper takes no token and
nothing changes (R80; log 7).
-/

namespace Sys2Proof.Machine

/-- `MP.DATA k` (R141): emit the character of the code. -/
def execMpData (k : Code) (s : State) : Host.Outcome State Fault Refusal :=
  if s.mapperReady then .next (s.emit (dataTok8 (alphaCode k))) else .next s

/-- `MP.END` (R142): emit END; the message is over. -/
def execMpEnd (s : State) : Host.Outcome State Fault Refusal :=
  if s.mapperReady then .next ((s.emit endTok8).enterPhase .idle) else .next s

end Sys2Proof.Machine
end

