-- ==== Sys2Proof/Machine/Packer.lean ====
section
/-!
DEFINITION. The two operations of the 6bit_packer (42_packer.md R122, R123), performed inside
`DF.EMIT`. Where the packer cannot take a token, it waits on its link and nothing changes (R186, R162;
log 7).
-/

namespace Sys2Proof.Machine

/-- `PK.DATA b` (R122). -/
def execPkData (b : Byte) (s : State) : Host.Outcome State Fault Refusal :=
  if s.packerReady then .next (s.packByte b) else .next s

/-- `PK.END` (R123). -/
def execPkEnd (s : State) : Host.Outcome State Fault Refusal :=
  if s.packerReady then .next s.flushGroup else .next s

end Sys2Proof.Machine
end

