-- ==== Sys2Proof/Machine/Dispatch.lean ====
section
/-!
DEFINITION. Which meaning each operation of the opcode table has, one arm a constructor.
-/

namespace Sys2Proof.Machine

def exec (i : Instr) (s : State) : Host.Outcome State Fault Refusal :=
  match i with
  | .inData b => Sys2Proof.Machine.execInData b s
  | .inEnd => Sys2Proof.Machine.execInEnd s
  | .inAbort => Sys2Proof.Machine.execInAbort s
  | .pkData b => Sys2Proof.Machine.execPkData b s
  | .pkEnd => Sys2Proof.Machine.execPkEnd s
  | .mpData k => Sys2Proof.Machine.execMpData k s
  | .mpEnd => Sys2Proof.Machine.execMpEnd s

end Sys2Proof.Machine
end

