-- ==== Sys2Proof/Machine/Step.lean ====
section
/-!
DEFINITION. One step of the block (40_encoder.md R80): the chosen step, with the token it takes off its
link decoded and performed in the same step (41_deflate.md R102, 43_mapper.md R141), or, where the word
is illegal, the fault of 30_encoding.md R68 and R69.
-/

namespace Sys2Proof.Machine

/-- Decode a token that has been taken off its link, and perform it or raise its fault. -/
def runToken (lt : LinkToken) (s : State) : Host.Outcome State Fault Refusal :=
  match decode lt with
  | .ok i => exec i s
  | .error r => .next (s.raiseFault (rejectCause r) (tokenWord lt))

/-- One step: the row of R80 the block takes, and the host's action of the step used up. A wait is a
step that changes nothing of the block (R80, R93; log 2). -/
def step (s : State) : Host.Outcome State Fault Refusal :=
  match s.chosenStep with
  | .reset => .next s.popHost.rst
  | .acceptIn t => runToken (.onIn t) s.popHost.popIn
  | .dfEmit t => runToken (.onDf2pk t) s.popHost.popDfOutq
  | .emitOut t => runToken (.onPk2mp t) s.popHost.popPkOutq
  | .wait => .next s.popHost

/-- `s` with the word placed where the next step takes its token: a `TOK8` is the token the host
offers on `IN` in the next step; a `TOK6` is at the head of `PK_OUTQ` and the host takes on `OUT` in the
next step (logs 8, 9). -/
def State.withFetchWord (s : State) (nbits w : Nat) : State :=
  if nbits = 8 then
    { s with pkOutq := BitVec.ofNat 8 w :: s.pkOutq, host := .take :: s.host }
  else
    { s with inPort := BitVec.ofNat 10 w :: s.inPort, host := .offer :: s.host }

end Sys2Proof.Machine
end

