-- ==== Sys2Proof/Machine/Contract.lean ====
section
/-!
DEFINITION. The functions the block is to compute, as the spec writes them over whole sequences: PACK
(42_packer.md R120), MAPSEQ (43_mapper.md R143), encode (00_scope.md R3), and the tokens of a message
(40_encoder.md R87). No step of the machine uses them; the claims compare the machine with them.
-/

namespace Sys2Proof.Machine

/-- `ceil_div(n, 3)` (R9). -/
def ceilDiv3 (n : Nat) : Nat := (n + 2) / 3

/-- `at(i)`: byte `i` of the sequence, `0x00` past its end (R120). -/
def byteAt (c : List Byte) (i : Nat) : Byte := c.getD i 0x00#8

/-- `PACK` (R120): four codes for each group of up to three bytes. -/
def pack (c : List Byte) : List Code :=
  (List.range (ceilDiv3 c.length)).flatMap fun j =>
    group (byteAt c (3 * j)) (byteAt c (3 * j + 1)) (byteAt c (3 * j + 2))

/-- `MAPSEQ` (R143). -/
def mapSeq (ks : List Code) : List Char := ks.map alpha

/-- `encode(p) = MAPSEQ(PACK(DEFLATE_FN(p)))` (R3). -/
def encodePayload (p : List Byte) : List Char := mapSeq (pack (Config.deflateFn p))

/-- The `OUT` DATA tokens of compressed bytes `c`, one a code (R87). -/
def characterTokens (c : List Byte) : List Tok8 := (pack c).map fun k => dataTok8 (alphaCode k)

/-- The `OUT` tokens of a message with payload `p` (R87). -/
def messageTokens (p : List Byte) : List Tok8 := characterTokens (Config.deflateFn p) ++ [endTok8]

/-- The raw stream inside a framed zlib stream: `z[2 .. len(z) - 4)` (R104). -/
def unframed (z : List Byte) : List Byte := (z.take (z.length - 4)).drop 2

end Sys2Proof.Machine
end

