-- ==== Sys2Proof/Safety.lean ====
section
/-!
DEFINITION. What counts as a safe state and a complete run, in the terms the claims use: the tokens
`OUT` may carry (30_encoding.md R64), the states a block can be powered on in and reach, the invariant of
10_state.md R33 made inductive, the tokens still owed to the host (40_encoder.md R86), and counts of the
steps of a run (R89).
-/

namespace Sys2Proof.Machine

/-- The legal tokens of `OUT`: DATA with one of the 64 character codes, END with data 0 (R64). -/
def legalOnOut (t : Tok8) : Bool :=
  t == endTok8 || (alphabet.map fun c => dataTok8 (BitVec.ofNat 8 c.toNat)).contains t

/-- A block at power-on (R181), built with a capacity, in front of a host that holds the tokens
`tokens` and will do `actions`. -/
def State.powerOn (capacity : Option Nat) (tokens : List Tok8) (actions : List HostAction) : State :=
  { State.reset with maxPayload := capacity, inPort := tokens, host := actions }

/-- `n` steps of the machine, stopping where a step does not answer a next state: the host's
`Host.Core.run` at this machine. -/
def run : Nat → State → Host.Outcome State Fault Refusal
  | 0, s => .next s
  | n + 1, s =>
    match step s with
    | .next t => run n t
    | .fault r => .fault r
    | .refused r => .refused r

/-- The state is reached from power-on by some host, in some number of steps. -/
def State.Reachable (t : State) : Prop :=
  ∃ capacity tokens actions n,
    run n (State.powerOn capacity tokens actions) = .next t

/-- DATA words, then one END as the last word: the shape of a stream still to be finished (R26). -/
def dataThenEnd8 : List Tok8 → Bool
  | [] => false
  | t :: ts => if t = endTok8 then ts.isEmpty else kind8 t == kindData && dataThenEnd8 ts

/-- The same shape on `PK2MP` (R29). -/
def dataThenEnd6 : List Tok6 → Bool
  | [] => false
  | t :: ts => if t = endTok6 then ts.isEmpty else kind6 t == kindData && dataThenEnd6 ts

/-- DATA words only. -/
def onlyData6 (q : List Tok6) : Bool := q.all fun t => kind6 t == kindData

/-- The fault fields agree: no cause and no token without a fault (R160), and a fault raised on `IN`
with the token that raised it; INTERNAL_KIND is never raised (R69). -/
abbrev State.FaultFieldsAgree (s : State) : Prop :=
  (s.fault = false → s.faultCause = .none ∧ s.faultToken = 0x000#10) ∧
  (s.fault = true →
    (s.faultCause = .reservedKind ∧ kind8 s.faultToken = 0b11#2) ∨
    (s.faultCause = .ctrlDataNonzero ∧
      (kind8 s.faultToken = kindEnd ∨ kind8 s.faultToken = kindAbort) ∧
      data8 s.faultToken ≠ 0x00#8))

/-- The queues of a message in DRAIN: the compressed stream is still being packed, or END has reached
`PK_OUTQ` and nothing is behind it (R26, R29, R33). -/
abbrev State.Draining (s : State) : Prop :=
  (dataThenEnd8 s.dfOutq = true ∧ onlyData6 s.pkOutq = true ∧ s.pkOutq.length ≤ 4) ∨
  (s.dfOutq = [] ∧ s.pkCnt = 0 ∧ dataThenEnd6 s.pkOutq = true ∧ s.pkOutq.length ≤ 5)

/-- Nothing is being drained (R33, the lines for IDLE and RECV). -/
abbrev State.QueuesEmpty (s : State) : Prop :=
  s.dfOutq = [] ∧ s.pkCnt = 0 ∧ s.pkOutq = []

/-- The invariant of the block: R33 with what makes it inductive, the capacity (R25), the unheld bytes
of the packer (R28) and the fault fields (R160). -/
abbrev State.Inv (s : State) : Prop :=
  s.FaultFieldsAgree ∧
  (s.maxPayload.all fun m => decide (s.dfBuf.length ≤ m)) = true ∧
  (s.pkCnt = 0 → s.pkB1 = 0x00#8 ∧ s.pkB2 = 0x00#8) ∧
  (s.pkCnt = 1 → s.pkB2 = 0x00#8) ∧
  (s.phase = .idle → s.dfBuf = [] ∧ s.QueuesEmpty) ∧
  (s.phase = .recv → s.dfBuf ≠ [] ∧ s.QueuesEmpty) ∧
  (s.phase = .drain → s.dfBuf = [] ∧ s.Draining)

/-- The bytes of the current group that the packer holds (R27, R28). -/
def State.heldBytes (s : State) : List Byte :=
  match s.pkCnt with
  | 0 => []
  | 1 => [s.pkB1]
  | 2 => [s.pkB1, s.pkB2]

/-- What the mapper emits on `OUT` for a legal token of `PK2MP` (R141, R142). -/
def outToken (w : Tok6) : Tok8 :=
  if w = endTok6 then endTok8 else dataTok8 (alphaCode (data6 w))

/-- The `OUT` tokens the block still owes the host (R86): those of `PK_OUTQ`, and then those of the bytes the
packer holds and of the rest of the compressed stream in `DF_OUTQ`, closed by its END. -/
def State.pendingOut (s : State) : List Tok8 :=
  s.pkOutq.map outToken ++
    if s.dfOutq = [] then []
    else characterTokens (s.heldBytes ++ s.dfOutq.dropLast.map data8) ++ [endTok8]

/-- No `RST` in the host's next `n` actions. -/
def noReset (n : Nat) (s : State) : Prop := HostAction.reset ∉ s.host.take n

/-- A step is a `DF.EMIT`. -/
def StepKind.isDfEmit : StepKind → Bool
  | .dfEmit _ => true
  | _ => false

/-- A step is an `OUT` step. -/
def StepKind.isEmitOut : StepKind → Bool
  | .emitOut _ => true
  | _ => false

/-- A step is a wait. -/
def StepKind.isWait : StepKind → Bool
  | .wait => true
  | _ => false

/-- How many of the next `n` steps from `s` are of a kind. -/
def countSteps (isKind : StepKind → Bool) : Nat → State → Nat
  | 0, _ => 0
  | n + 1, s =>
    (if isKind s.chosenStep then 1 else 0) +
      match step s with
      | .next t => countSteps isKind n t
      | .fault _ => 0
      | .refused _ => 0

/-- The packer driven alone: each instruction performed in turn, with the tokens it queues taken away
before the next (the condition of R126). The tokens taken, in order, and the last state; `none` where an
instruction does not answer a next state. -/
def drivePacker : List Instr → State → Option (List Tok6 × State)
  | [], s => some ([], s)
  | i :: is, s =>
    match exec i s with
    | .next t =>
      (drivePacker is { t with pkOutq := [] }).map fun r => (t.pkOutq ++ r.1, r.2)
    | .fault _ => none
    | .refused _ => none

end Sys2Proof.Machine
end

