-- ==== Sys2Proof/Certificates/Slice0/Obligations.lean ====
section
/-!
DEFINITION. The statements about the encoder block, for the provers. Each docstring names the rule of
spec/ the statement formalises; rules the spec itself marks as derived are stated with basis 'derived'.
-/

open Sys2Proof Sys2Proof.Machine

/-! ## Encoding -/

/-- R66: the match and mask columns select exactly the operations the decoder reads, the rows of one
link do not overlap (a decoder answers one operation), and a word that selects no row is reserved. -/
def Obligations.OpcodeRowsSelectOperations : Prop :=
  (∀ t : Tok8,
    (decode (.onIn t) = .ok (.inData (t.setWidth 8)) ↔ t &&& 0x300#10 = 0x000#10) ∧
    (decode (.onIn t) = .ok .inEnd ↔ t &&& 0x3FF#10 = 0x100#10) ∧
    (decode (.onIn t) = .ok .inAbort ↔ t &&& 0x3FF#10 = 0x200#10) ∧
    ((∃ r, decode (.onIn t) = .error r) ↔
      t &&& 0x300#10 ≠ 0x000#10 ∧ t &&& 0x3FF#10 ≠ 0x100#10 ∧ t &&& 0x3FF#10 ≠ 0x200#10)) ∧
  (∀ t : Tok8,
    (decode (.onDf2pk t) = .ok (.pkData (t.setWidth 8)) ↔ t &&& 0x300#10 = 0x000#10) ∧
    (decode (.onDf2pk t) = .ok .pkEnd ↔ t &&& 0x3FF#10 = 0x100#10) ∧
    ((∃ r, decode (.onDf2pk t) = .error r) ↔
      t &&& 0x300#10 ≠ 0x000#10 ∧ t &&& 0x3FF#10 ≠ 0x100#10)) ∧
  (∀ t : Tok6,
    (decode (.onPk2mp t) = .ok (.mpData (t.setWidth 6)) ↔ t &&& 0xC0#8 = 0x00#8) ∧
    (decode (.onPk2mp t) = .ok .mpEnd ↔ t &&& 0xFF#8 = 0x40#8) ∧
    ((∃ r, decode (.onPk2mp t) = .error r) ↔ t &&& 0xC0#8 ≠ 0x00#8 ∧ t &&& 0xFF#8 ≠ 0x40#8))

/-- R67: the six classes of the 1024 words on `IN`, by their ranges, with their counts. -/
def Obligations.InWordsFallInSixClasses : Prop :=
  (∀ t : Tok8, decode (.onIn t) =
    if t.toNat ≤ 0x0FF then .ok (.inData (t.setWidth 8))
    else if t.toNat = 0x100 then .ok .inEnd
    else if t.toNat ≤ 0x1FF then .error .ctrlDataNonzero
    else if t.toNat = 0x200 then .ok .inAbort
    else if t.toNat ≤ 0x2FF then .error .ctrlDataNonzero
    else .error .reservedKind) ∧
  (let classSize := fun (lo hi : Nat) (c : Except Reject Instr → Bool) =>
    (List.range 1024).countP fun w =>
      decide (lo ≤ w ∧ w ≤ hi) && c (decode (.onIn (BitVec.ofNat 10 w)))
  classSize 0x000 0x0FF (fun r => r.isOk) = 256 ∧
  classSize 0x100 0x100 (fun r => r == .ok .inEnd) = 1 ∧
  classSize 0x200 0x200 (fun r => r == .ok .inAbort) = 1 ∧
  classSize 0x101 0x1FF (fun r => r == .error .ctrlDataNonzero) = 255 ∧
  classSize 0x201 0x2FF (fun r => r == .error .ctrlDataNonzero) = 255 ∧
  classSize 0x300 0x3FF (fun r => r == .error .reservedKind) = 256)

/-- Sanity: words written out from the encoding column of R66 decode to the operations they stand
for. -/
def Obligations.SampleWordsDecode : Prop :=
  decode (.onIn 0b0001000001#10) = .ok (.inData 0x41#8) ∧
  decode (.onIn 0b0100000000#10) = .ok .inEnd ∧
  decode (.onIn 0b1000000000#10) = .ok .inAbort ∧
  decode (.onDf2pk 0b0001110011#10) = .ok (.pkData 0x73#8) ∧
  decode (.onDf2pk 0b0100000000#10) = .ok .pkEnd ∧
  decode (.onPk2mp 0b00110000#8) = .ok (.mpData 48#6) ∧
  decode (.onPk2mp 0b01000000#8) = .ok .mpEnd

/-- Decode and encode agree on every instruction with every operand (every term of `Instr` is
well-formed); each word has one meaning; and the words with a meaning are exactly the legal words that
R64 lists. -/
def Obligations.DecodeEncodeAgree : Prop :=
  (∀ i : Instr, decode (encode i) = .ok i) ∧
  (∀ (w : LinkToken) (i : Instr), decode w = .ok i → encode i = w) ∧
  (∀ w : LinkToken, w.legal = true ↔ ∃ i, decode w = .ok i)

/-! ## The step -/

/-- R80's three rows with a token: where the row is enabled and its word decodes to an instruction, the
step takes the token off its link and is `exec` of that instruction; the host's action is used up. -/
def Obligations.StepRunsDecodedToken : Prop :=
  (∀ (s : State) (hs : List HostAction) (t : Tok8) (ts : List Tok8) (i : Instr),
    s.host = .offer :: hs → s.inPort = t :: ts → s.inReady t = true → decode (.onIn t) = .ok i →
    step s = exec i { s with host := hs, inPort := ts }) ∧
  (∀ (s : State) (t : Tok8) (ts : List Tok8) (i : Instr),
    s.fault = false → s.phase = .drain → s.pkOutq = [] → s.dfOutq = t :: ts →
    s.host.head? ≠ some .reset → decode (.onDf2pk t) = .ok i →
    step s = exec i { s with host := s.host.tail, dfOutq := ts }) ∧
  (∀ (s : State) (hs : List HostAction) (t : Tok6) (ts : List Tok6) (i : Instr),
    s.host = .take :: hs → s.fault = false → s.pkOutq = t :: ts → decode (.onPk2mp t) = .ok i →
    step s = exec i { s with host := hs, pkOutq := ts })

/-- Every step answers a next state: the spec gives an effect or a wait everywhere. -/
def Obligations.StepAlwaysAnswersNext : Prop :=
  ∀ s : State, ∃ t, step s = .next t

/-! ## IN operations -/

/-- R32: the IN_READY formula, and a token that is not ready stays with the host. -/
def Obligations.InReadyFormula : Prop :=
  (∀ (s : State) (t : Tok8), s.inReady t = true ↔
    s.fault = false ∧ s.phase ≠ .drain ∧
    ¬(kind8 t = 0b00#2 ∧ s.maxPayload = some s.dfBuf.length)) ∧
  (∀ (s u : State) (t : Tok8) (ts : List Tok8),
    s.inPort = t :: ts → s.inReady t = false → step s = .next u → u.inPort = t :: ts)

/-- R81: `IN.DATA b`, word `0x000 | b`: accepted where its `requires` holds, it appends the byte and
makes PHASE RECV, and nothing else changes; elsewhere it stays with the host. -/
def Obligations.InDataAppendsByte : Prop :=
  ∀ (s : State) (b : Byte),
    (s.fault = false → s.phase ≠ .drain → s.maxPayload ≠ some s.dfBuf.length →
      exec (.inData b) s = .next { s with dfBuf := s.dfBuf ++ [b], phase := .recv } ∧
      ∀ hs ts, s.host = .offer :: hs → s.inPort = (0x000#10 ||| b.setWidth 10) :: ts →
        step s = .next
          { s with dfBuf := s.dfBuf ++ [b], phase := .recv, host := hs, inPort := ts }) ∧
    ((s.fault = true ∨ s.phase = .drain ∨ s.maxPayload = some s.dfBuf.length) →
      ∀ ts u, s.inPort = (0x000#10 ||| b.setWidth 10) :: ts → step s = .next u →
        u.inPort = s.inPort)

/-- R82 with R101: `IN.END`, word `0x100`: the whole payload is compressed into `DF_OUTQ`, one DATA word
a byte and then END, the payload buffer is emptied and PHASE becomes DRAIN; nothing is emitted and
nothing else changes. It needs no room in the payload buffer; in DRAIN it is not accepted. -/
def Obligations.InEndCompressesPayload : Prop :=
  ∀ s : State,
    (s.fault = false → s.phase ≠ .drain →
      exec .inEnd s = .next
        { s with
          dfOutq := (Config.deflateFn s.dfBuf).map (fun b => 0b00#2 ++ b) ++ [0x100#10]
          dfBuf := []
          phase := .drain } ∧
      ∀ hs ts, s.host = .offer :: hs → s.inPort = 0x100#10 :: ts →
        step s = .next
          { s with
            dfOutq := (Config.deflateFn s.dfBuf).map (fun b => 0b00#2 ++ b) ++ [0x100#10]
            dfBuf := []
            phase := .drain
            host := hs
            inPort := ts }) ∧
    ((s.fault = true ∨ s.phase = .drain) →
      ∀ ts u, s.inPort = 0x100#10 :: ts → step s = .next u → u.inPort = s.inPort)

/-- R83: `IN.ABORT`, word `0x200`: the payload is discarded and PHASE becomes IDLE; nothing is emitted
and nothing else changes; in DRAIN it is not accepted. -/
def Obligations.InAbortDiscardsPayload : Prop :=
  ∀ s : State,
    (s.fault = false → s.phase ≠ .drain →
      exec .inAbort s = .next { s with dfBuf := [], phase := .idle } ∧
      ∀ hs ts, s.host = .offer :: hs → s.inPort = 0x200#10 :: ts →
        step s = .next { s with dfBuf := [], phase := .idle, host := hs, inPort := ts }) ∧
    ((s.fault = true ∨ s.phase = .drain) →
      ∀ ts u, s.inPort = 0x200#10 :: ts → step s = .next u → u.inPort = s.inPort)

/-- R185: a token the block does not accept stays with the host; no `IN` token is accepted in DRAIN; and
DRAIN is left, but for reset, only by the step that emits the message's END on `OUT`. -/
def Obligations.NoInputUntilMessageEnd : Prop :=
  (∀ (s u : State) (t : Tok8) (ts : List Tok8),
    s.inPort = t :: ts → s.inReady t = false → step s = .next u → u.inPort = t :: ts) ∧
  (∀ (s u : State), s.phase = .drain → step s = .next u → u.inPort = s.inPort) ∧
  (∀ (s u : State), s.phase = .drain → s.host.head? ≠ some .reset → step s = .next u →
    u.phase = .drain ∨ (u.phase = .idle ∧ u.out = s.out ++ [0x100#10]))

/-- After power-on, and after every reset step, the block accepts END and ABORT at once, and DATA where
its capacity is not zero (R182, R32), and STATUS reads `0x0000` (R34's derived row). -/
def Obligations.PowerOnAcceptsInput : Prop :=
  ∀ u : State,
    ((∃ capacity tokens actions, u = State.powerOn capacity tokens actions) ∨
      ∃ (s : State) (hs : List HostAction), s.host = .reset :: hs ∧ step s = .next u) →
    u.inReady 0x100#10 = true ∧ u.inReady 0x200#10 = true ∧
    (∀ b : Byte, u.inReady (0b00#2 ++ b) = true ↔ u.maxPayload ≠ some 0) ∧
    u.status = 0x0000#16

/-! ## Faults and reset -/

/-- R68: an illegal word that is offered and ready is consumed and raises its fault; nothing but the
fault fields is written. -/
def Obligations.IllegalInWordRaisesFault : Prop :=
  ∀ (s : State) (hs : List HostAction) (t : Tok8) (ts : List Tok8),
    s.host = .offer :: hs → s.inPort = t :: ts → s.inReady t = true →
    (kind8 t = 0b11#2 →
      step s = .next
        { s with
          host := hs, inPort := ts
          fault := true, faultCause := .reservedKind, faultToken := t }) ∧
    ((kind8 t = 0b01#2 ∨ kind8 t = 0b10#2) → data8 t ≠ 0x00#8 →
      step s = .next
        { s with
          host := hs, inPort := ts
          fault := true, faultCause := .ctrlDataNonzero, faultToken := t })

/-- R69's fault on the internal links, for every word other than the legal ones: the token is popped,
INTERNAL_KIND and the zero-extended token are recorded, nothing is emitted. -/
def Obligations.IllegalInternalTokenRaisesFault : Prop :=
  (∀ (s : State) (t : Tok8) (ts : List Tok8),
    s.fault = false → s.phase = .drain → s.pkOutq = [] → s.dfOutq = t :: ts →
    s.host.head? ≠ some .reset → 0x0FF < t.toNat → t ≠ 0x100#10 →
    step s = .next
      { s with
        host := s.host.tail, dfOutq := ts
        fault := true, faultCause := .internalKind, faultToken := t }) ∧
  (∀ (s : State) (hs : List HostAction) (t : Tok6) (ts : List Tok6),
    s.host = .take :: hs → s.fault = false → s.pkOutq = t :: ts → 0x3F < t.toNat → t ≠ 0x40#8 →
    step s = .next
      { s with
        host := hs, pkOutq := ts
        fault := true, faultCause := .internalKind, faultToken := t.setWidth 10 })

/-- R161: whatever step raises a fault writes the fault fields and consumes its one token; every other
register and queue keeps its value and nothing is emitted. -/
def Obligations.FaultingStepIsPrecise : Prop :=
  ∀ s u : State, s.fault = false → u.fault = true → step s = .next u →
    u = { s with
          host := s.host.tail, inPort := u.inPort, dfOutq := u.dfOutq, pkOutq := u.pkOutq
          fault := true, faultCause := u.faultCause, faultToken := u.faultToken } ∧
    ((s.inPort = u.faultToken :: u.inPort ∧ u.dfOutq = s.dfOutq ∧ u.pkOutq = s.pkOutq ∧
        (u.faultCause = .reservedKind ∨ u.faultCause = .ctrlDataNonzero)) ∨
     (s.dfOutq = u.faultToken :: u.dfOutq ∧ u.inPort = s.inPort ∧ u.pkOutq = s.pkOutq ∧
        u.faultCause = .internalKind) ∨
     (∃ w : Tok6, s.pkOutq = w :: u.pkOutq ∧ u.faultToken = w.setWidth 10 ∧
        u.inPort = s.inPort ∧ u.dfOutq = s.dfOutq ∧ u.faultCause = .internalKind))

/-- R162: while FAULT is 1 IN_READY is false for every token, every step but reset only waits, and
reset clears FAULT. -/
def Obligations.FaultedBlockOnlyResets : Prop :=
  ∀ s : State, s.fault = true →
    (∀ t, s.inReady t = false) ∧
    (s.host.head? ≠ some .reset → step s = .next { s with host := s.host.tail }) ∧
    (s.host.head? = some .reset → ∃ u, step s = .next u ∧ u.fault = false)

/-- The first fault is kept: over any run without reset a faulted block keeps every field. -/
def Obligations.FirstFaultIsKept : Prop :=
  ∀ (n : Nat) (s t : State), s.fault = true → noReset n s →
    run n s = .next t → t = { s with host := s.host.drop n }

/-- No instruction raises a fault: legal tokens never fault. -/
def Obligations.LegalTokensNeverFault : Prop :=
  ∀ (i : Instr) (s t : State), exec i s = .next t →
    t.fault = s.fault ∧ t.faultCause = s.faultCause ∧ t.faultToken = s.faultToken

/-- R180: reset, asserted in any state, takes the reset step and no other: every register takes its
reset value, no token is emitted on `OUT` and none is consumed from `IN`. -/
def Obligations.ResetStepRestoresState : Prop :=
  ∀ (s : State) (hs : List HostAction), s.host = .reset :: hs →
    ∃ u, step s = .next u ∧
      u.phase = .idle ∧ u.fault = false ∧ u.faultCause = .none ∧ u.faultToken = 0x000#10 ∧
      u.dfBuf = [] ∧ u.dfOutq = [] ∧
      u.pkCnt = 0 ∧ u.pkB1 = 0x00#8 ∧ u.pkB2 = 0x00#8 ∧ u.pkOutq = [] ∧
      u.out = s.out ∧ u.inPort = s.inPort

/-- R34: the value of every piece of state, at power-on whatever the capacity and the host, and after
the reset step. -/
def Obligations.ResetValues : Prop :=
  ∀ u : State,
    ((∃ capacity tokens actions, u = State.powerOn capacity tokens actions) ∨
      ∃ (s : State) (hs : List HostAction), s.host = .reset :: hs ∧ step s = .next u) →
    u.phase = .idle ∧ u.fault = false ∧ u.faultCause = .none ∧ u.faultToken = 0x000#10 ∧
    u.dfBuf = [] ∧ u.dfOutq = [] ∧ u.pkCnt = 0 ∧ u.pkB1 = 0x00#8 ∧ u.pkB2 = 0x00#8 ∧
    u.pkOutq = []

/-- R31: the fields of STATUS. -/
def Obligations.StatusFields : Prop :=
  ∀ s : State,
    s.status.extractLsb' 0 2 =
      (match s.phase with | .idle => 0b00#2 | .recv => 0b01#2 | .drain => 0b10#2) ∧
    s.status.getLsbD 2 = s.fault ∧
    s.status.extractLsb' 3 2 =
      (match s.faultCause with
        | .none => 0b00#2 | .reservedKind => 0b01#2
        | .ctrlDataNonzero => 0b10#2 | .internalKind => 0b11#2) ∧
    s.status.getLsbD 5 = false ∧
    s.status.extractLsb' 6 10 = s.faultToken

/-! ## Packer -/

/-- R121: the slices of GROUP and the field layout of the 24-bit group word. -/
def Obligations.GroupLayout : Prop :=
  ∀ b1 b2 b3 : Byte, ∃ c1 c2 c3 c4 : Code,
    group b1 b2 b3 = [c1, c2, c3, c4] ∧
    c1 = b1.extractLsb' 2 6 ∧
    c2 = b1.extractLsb' 0 2 ++ b2.extractLsb' 4 4 ∧
    c3 = b2.extractLsb' 0 4 ++ b3.extractLsb' 6 2 ∧
    c4 = b3.extractLsb' 0 6 ∧
    (b1 ++ b2 ++ b3 : BitVec 24).extractLsb' 18 6 = c1 ∧
    (b1 ++ b2 ++ b3 : BitVec 24).extractLsb' 12 6 = c2 ∧
    (b1 ++ b2 ++ b3 : BitVec 24).extractLsb' 6 6 = c3 ∧
    (b1 ++ b2 ++ b3 : BitVec 24).extractLsb' 0 6 = c4

/-- What the spec derives from the layout of a group: the two views of a group are one 24-bit value (the
mixed-width view of 20_memory.md), and GROUP in arithmetic on unsigned integers. -/
def Obligations.GroupInArithmetic : Prop :=
  ∀ b1 b2 b3 : Byte, ∃ c1 c2 c3 c4 : Code,
    group b1 b2 b3 = [c1, c2, c3, c4] ∧
    (b1 ++ b2 ++ b3 : BitVec 24) = c1 ++ c2 ++ c3 ++ c4 ∧
    c1.toNat = b1.toNat >>> 2 ∧
    c2.toNat = (b1.toNat &&& 0x03) <<< 4 ||| b2.toNat >>> 4 ∧
    c3.toNat = (b2.toNat &&& 0x0F) <<< 2 ||| b3.toNat >>> 6 ∧
    c4.toNat = b3.toNat &&& 0x3F

/-- R122: `PK.DATA b` by PK_CNT, where the packer's queue is empty (as `DF.EMIT` guarantees). Nothing but the packer's registers and queue
changes. -/
def Obligations.PkDataFillsGroup : Prop :=
  ∀ (s : State) (b : Byte), s.fault = false → s.pkOutq = [] →
    (s.pkCnt = 0 → exec (.pkData b) s = .next { s with pkB1 := b, pkCnt := 1 }) ∧
    (s.pkCnt = 1 → exec (.pkData b) s = .next { s with pkB2 := b, pkCnt := 2 }) ∧
    (s.pkCnt = 2 → exec (.pkData b) s = .next
      { s with
        pkOutq := (group s.pkB1 s.pkB2 b).map (fun c => 0b00#2 ++ c)
        pkB1 := 0x00#8, pkB2 := 0x00#8, pkCnt := 0 })

/-- R123: `PK.END` by PK_CNT, where the packer's queue is empty. Nothing but the packer's registers and queue
changes. -/
def Obligations.PkEndFlushesGroup : Prop :=
  ∀ s : State, s.fault = false → s.pkOutq = [] →
    exec .pkEnd s = .next
      { s with
        pkOutq :=
          (if s.pkCnt = 0 then []
           else if s.pkCnt = 1 then (group s.pkB1 0x00#8 0x00#8).map (fun c => 0b00#2 ++ c)
           else (group s.pkB1 s.pkB2 0x00#8).map (fun c => 0b00#2 ++ c)) ++ [0x40#8]
        pkB1 := 0x00#8, pkB2 := 0x00#8, pkCnt := 0 }

/-- The model's reading (log 7): a token that its link would not take in a state changes nothing there.
The conditions are those of IN_READY (R32), of the packer (R122, R186) and of the `OUT` step (R80). -/
def Obligations.TokensWaitWhereNotReady : Prop :=
  ∀ s : State,
    (∀ b, s.inReady (0b00#2 ++ b) = false → exec (.inData b) s = .next s) ∧
    (s.inReady 0x100#10 = false → exec .inEnd s = .next s) ∧
    (s.inReady 0x200#10 = false → exec .inAbort s = .next s) ∧
    ((s.fault = true ∨ s.pkOutq ≠ []) →
      exec .pkEnd s = .next s ∧ ∀ b, exec (.pkData b) s = .next s) ∧
    (s.fault = true → exec .mpEnd s = .next s ∧ ∀ k, exec (.mpData k) s = .next s)

/-- R102: `DF.EMIT` pops the head of `DF_OUTQ` and performs `PK.DATA`, `PK.END` or the fault in the same
step; where its `requires` fails, the packer's registers keep their values, and so does `DF_OUTQ` but for the
step in which `IN.END` fills it. -/
def Obligations.DfEmitHandsTokenToPacker : Prop :=
  (∀ (s : State) (t : Tok8) (ts : List Tok8),
    s.fault = false → s.phase = .drain → s.dfOutq = t :: ts → s.pkOutq = [] →
    s.host.head? ≠ some .reset →
    step s =
      (if t &&& 0x300#10 = 0x000#10 then
        exec (.pkData (t.setWidth 8)) { s with host := s.host.tail, dfOutq := ts }
      else if t = 0x100#10 then exec .pkEnd { s with host := s.host.tail, dfOutq := ts }
      else .next
        { s with
          host := s.host.tail, dfOutq := ts
          fault := true, faultCause := .internalKind, faultToken := t })) ∧
  (∀ s u : State, s.phase = .drain → (s.fault = true ∨ s.dfOutq = [] ∨ s.pkOutq ≠ []) →
    s.host.head? ≠ some .reset → step s = .next u →
    u.dfOutq = s.dfOutq ∧ u.pkCnt = s.pkCnt ∧ u.pkB1 = s.pkB1 ∧ u.pkB2 = s.pkB2) ∧
  (∀ s u : State, s.phase ≠ .drain → s.host.head? ≠ some .reset → step s = .next u →
    u.pkCnt = s.pkCnt ∧ u.pkB1 = s.pkB1 ∧ u.pkB2 = s.pkB2 ∧
    (u.dfOutq = s.dfOutq ∨ u.phase = .drain))

/-- R28: in every reachable state PK_B1 and PK_B2 hold `0x00` while they hold no byte, and the packer
reads neither register outside the condition under which it holds one. -/
def Obligations.UnheldBytesAreZeroAndUnread : Prop :=
  (∀ t : State, t.Reachable →
    (t.pkCnt = 0 → t.pkB1 = 0x00#8 ∧ t.pkB2 = 0x00#8) ∧ (t.pkCnt = 1 → t.pkB2 = 0x00#8)) ∧
  (∀ (s : State) (x y : Byte), s.fault = false → s.pkOutq = [] →
    s.pkCnt = 0 → exec .pkEnd { s with pkB1 := x, pkB2 := y } = exec .pkEnd s) ∧
  (∀ (s : State) (y : Byte), s.fault = false → s.pkOutq = [] →
    s.pkCnt = 1 → exec .pkEnd { s with pkB2 := y } = exec .pkEnd s) ∧
  (∀ (s t : State) (b x y : Byte), s.fault = false → s.pkOutq = [] →
    s.pkCnt = 0 → exec (.pkData b) s = .next t →
    exec (.pkData b) { s with pkB1 := x, pkB2 := y } = .next { t with pkB2 := y }) ∧
  (∀ (s : State) (b y : Byte), s.fault = false → s.pkOutq = [] →
    s.pkCnt = 1 → exec (.pkData b) { s with pkB2 := y } = exec (.pkData b) s)

/-- PACK group by group: full groups first, and the three forms of the last one (R120, R127). -/
def Obligations.PackGroupByGroup : Prop :=
  pack [] = [] ∧
  (∀ b1 : Byte, pack [b1] = group b1 0x00#8 0x00#8) ∧
  (∀ b1 b2 : Byte, pack [b1, b2] = group b1 b2 0x00#8) ∧
  (∀ (b1 b2 b3 : Byte) (c : List Byte), pack (b1 :: b2 :: b3 :: c) = group b1 b2 b3 ++ pack c)

/-- The packer's operations compute PACK (R126): driven with the bytes of `c` and then END from an
empty group, the tokens it queues are the codes of `PACK(c)` and one END, and it ends empty. -/
def Obligations.PackerComputesPack : Prop :=
  ∀ (s : State) (c : List Byte),
    s.fault = false → s.pkCnt = 0 → s.pkOutq = [] →
    drivePacker (c.map .pkData ++ [.pkEnd]) s =
      some ((pack c).map dataTok6 ++ [endTok6],
        { s with pkCnt := 0, pkB1 := 0x00#8, pkB2 := 0x00#8 })

/-! ## Mapper -/

/-- R140: the alphabet, the character of each code and its code on `OUT`, against the string and the
table of the rule. -/
def Obligations.AlphabetTable : Prop :=
  ∀ k : Code,
    "0123456789ABCDEFGHIJKLMNOPQRSTUVWXYZabcdefghijklmnopqrstuvwxyz-_".toList[k.toNat]? =
      some (alpha k) ∧
    ([0x30, 0x31, 0x32, 0x33, 0x34, 0x35, 0x36, 0x37, 0x38, 0x39] ++
     [0x41, 0x42, 0x43, 0x44, 0x45, 0x46, 0x47, 0x48, 0x49, 0x4A, 0x4B, 0x4C, 0x4D] ++
     [0x4E, 0x4F, 0x50, 0x51, 0x52, 0x53, 0x54, 0x55, 0x56, 0x57, 0x58, 0x59, 0x5A] ++
     [0x61, 0x62, 0x63, 0x64, 0x65, 0x66, 0x67, 0x68, 0x69, 0x6A, 0x6B, 0x6C, 0x6D] ++
     [0x6E, 0x6F, 0x70, 0x71, 0x72, 0x73, 0x74, 0x75, 0x76, 0x77, 0x78, 0x79, 0x7A] ++
     [0x2D, 0x5F] : List Byte)[k.toNat]? = some (alphaCode k)

/-- The closed form of ALPHA_CODE that the spec derives from the table. -/
def Obligations.AlphabetClosedForm : Prop :=
  ∀ k : Code,
    (alphaCode k).toNat =
      (if k.toNat ≤ 9 then 0x30 + k.toNat
       else if k.toNat ≤ 35 then 0x37 + k.toNat
       else if k.toNat ≤ 61 then 0x3D + k.toNat
       else if k.toNat = 62 then 0x2D else 0x5F)

/-- The 64 characters and their codes are pairwise distinct (R144). -/
def Obligations.AlphabetIsInjective : Prop :=
  ∀ j k : Code, (alpha j = alpha k → j = k) ∧ (alphaCode j = alphaCode k → j = k)

/-- R141: the `OUT` step pops the head of `PK_OUTQ` and emits the character of a code, performs MP.END,
or raises the fault; `MP.DATA k` itself changes `OUT` alone. -/
def Obligations.MpDataEmitsCharacter : Prop :=
  (∀ (s : State) (k : Code), s.fault = false →
    exec (.mpData k) s = .next { s with out := s.out ++ [0b00#2 ++ alphaCode k] }) ∧
  (∀ (s : State) (hs : List HostAction) (t : Tok6) (ts : List Tok6),
    s.host = .take :: hs → s.fault = false → s.pkOutq = t :: ts →
    step s =
      (if t.toNat ≤ 0x3F then .next
        { s with
          host := hs, pkOutq := ts, out := s.out ++ [0b00#2 ++ alphaCode (t.setWidth 6)] }
      else if t = 0x40#8 then exec .mpEnd { s with host := hs, pkOutq := ts }
      else .next
        { s with
          host := hs, pkOutq := ts
          fault := true, faultCause := .internalKind, faultToken := t.setWidth 10 }))

/-- R142: `MP.END` emits `0x100` on `OUT` and PHASE becomes IDLE; nothing else changes but the pop of
the `OUT` step. -/
def Obligations.MpEndClosesMessage : Prop :=
  (∀ s : State, s.fault = false →
    exec .mpEnd s = .next { s with out := s.out ++ [0x100#10], phase := .idle }) ∧
  (∀ (s : State) (hs : List HostAction) (ts : List Tok6),
    s.host = .take :: hs → s.fault = false → s.pkOutq = 0x40#8 :: ts →
    step s = .next
      { s with host := hs, pkOutq := ts, out := s.out ++ [0x100#10], phase := .idle })

/-- Where every token goes in a step other than reset, from a state of the invariant. The `OUT` step:
the host takes, and the head of `PK_OUTQ` leaves as its image on `OUT`. `DF.EMIT`: the head of `DF_OUTQ`
goes to the packer, which holds the byte, or queues the group it completes, or queues the partial group
and END. `IN.END`: the empty `DF_OUTQ` is filled with the compressed payload. Every other step, a fault
included, leaves `OUT`, both queues and the held bytes as they were. -/
def Obligations.OutKeepsEveryToken : Prop :=
  ∀ s u : State, s.Inv → step s = .next u → s.host.head? ≠ some .reset →
    (∃ w ws, s.host.head? = some .take ∧ s.pkOutq = w :: ws ∧ u.pkOutq = ws ∧
      u.dfOutq = s.dfOutq ∧ u.heldBytes = s.heldBytes ∧
      u.out = s.out ++ [if w = 0x40#8 then 0x100#10 else 0b00#2 ++ alphaCode (w.setWidth 6)]) ∨
    (u.out = s.out ∧
      ((∃ b : Byte, s.pkOutq = [] ∧ s.dfOutq = (0b00#2 ++ b) :: u.dfOutq ∧
          ((u.heldBytes = s.heldBytes ++ [b] ∧ u.pkOutq = []) ∨
           (∃ b1 b2, s.heldBytes = [b1, b2] ∧ u.heldBytes = [] ∧
             u.pkOutq = (group b1 b2 b).map (fun c => 0b00#2 ++ c)))) ∨
       (s.pkOutq = [] ∧ s.dfOutq = [0x100#10] ∧ u.dfOutq = [] ∧ u.heldBytes = [] ∧
          u.pkOutq = (pack s.heldBytes).map (fun c => 0b00#2 ++ c) ++ [0x40#8]) ∨
       (s.phase ≠ .drain ∧ u.phase = .drain ∧
          s.dfOutq = [] ∧ s.pkOutq = [] ∧ s.heldBytes = [] ∧
          u.dfOutq = compressedTokens (Config.deflateFn s.dfBuf) ∧
          u.pkOutq = [] ∧ u.heldBytes = []) ∨
       (u.dfOutq = s.dfOutq ∧ u.pkOutq = s.pkOutq ∧ u.heldBytes = s.heldBytes)))

/-! ## The invariant -/

/-- The invariant holds at power-on, whatever the capacity and the host. -/
def Obligations.PowerOnMeetsInvariant : Prop :=
  ∀ (capacity : Option Nat) (tokens : List Tok8) (actions : List HostAction),
    (State.powerOn capacity tokens actions).Inv

/-- Every step keeps the invariant, from every state that meets it. -/
def Obligations.StepKeepsInvariant : Prop :=
  ∀ s u : State, s.Inv → step s = .next u → u.Inv

/-- R33, line by line, in every state reachable from power-on under any host with FAULT 0. -/
def Obligations.ReachableStatesMeetR33 : Prop :=
  ∀ t : State, t.Reachable → t.fault = false →
    (t.phase = .idle → t.dfBuf = [] ∧ t.dfOutq = [] ∧ t.pkCnt = 0 ∧ t.pkOutq = []) ∧
    (t.phase = .recv →
      1 ≤ t.dfBuf.length ∧ t.dfOutq = [] ∧ t.pkCnt = 0 ∧ t.pkOutq = []) ∧
    (t.phase = .drain → t.dfBuf = [] ∧ (t.dfOutq ≠ [] ∨ t.pkOutq ≠ [])) ∧
    (∀ pre post, t.dfOutq = pre ++ 0x100#10 :: post → post = []) ∧
    (∀ pre post, t.pkOutq = pre ++ 0x40#8 :: post → post = []) ∧
    (0x100#10 ∈ t.dfOutq → 0x40#8 ∉ t.pkOutq)

/-- In every reachable state: INTERNAL_KIND was never raised, a recorded cause fits the recorded token
(R160), `PK_OUTQ` holds at most five tokens (R124), and `DF_BUF` fits the capacity (R25). -/
def Obligations.ReachableFaultsAndBounds : Prop :=
  ∀ t : State, t.Reachable →
    t.faultCause ≠ .internalKind ∧
    (t.fault = false ↔ t.faultCause = .none) ∧
    (t.faultCause = .reservedKind → 0x300 ≤ t.faultToken.toNat) ∧
    (t.faultCause = .ctrlDataNonzero →
      (0x101 ≤ t.faultToken.toNat ∧ t.faultToken.toNat ≤ 0x1FF) ∨
      (0x201 ≤ t.faultToken.toNat ∧ t.faultToken.toNat ≤ 0x2FF)) ∧
    t.pkOutq.length ≤ 5 ∧
    (∀ m, t.maxPayload = some m → t.dfBuf.length ≤ m)

/-! ## Messages -/

/-- Output length and alphabet (R88), for every payload. -/
def Obligations.OutputLengthAndAlphabet : Prop :=
  ∀ p : List Byte,
    (encodePayload p).length = 4 * ceilDiv3 (Config.deflateFn p).length ∧
    (encodePayload p).length % 4 = 0 ∧
    (∀ c ∈ encodePayload p,
      c ∈ "0123456789ABCDEFGHIJKLMNOPQRSTUVWXYZabcdefghijklmnopqrstuvwxyz-_".toList) ∧
    messageTokens p =
      (encodePayload p).map (fun c => 0b00#2 ++ BitVec.ofNat 8 c.toNat) ++ [0x100#10] ∧
    (∀ t ∈ messageTokens p, legalOnOut t = true)

/-- Store and forward (R105): before `IN.END` is accepted no step emits a token or gives the packer a
byte, and the step that accepts it holds the whole compressed payload back in `DF_OUTQ`. -/
def Obligations.StoreAndForward : Prop :=
  ∀ s u : State, s.Inv → s.phase ≠ .drain → step s = .next u →
    u.out = s.out ∧
    (u.phase ≠ .drain → u.QueuesEmpty) ∧
    (u.phase = .drain →
      u.dfOutq = compressedTokens (Config.deflateFn s.dfBuf) ∧ u.pkCnt = 0 ∧ u.pkOutq = [])

/-- Message output (R87): from an IDLE state of the invariant, whatever the host does but reset and for
any number of steps, what has left on `OUT` agrees with the message's tokens; and the step that emits a
message's END leaves the block IDLE and empty. -/
def Obligations.MessageOutputOnEverySchedule : Prop :=
  (∀ (s t : State) (p : List Byte) (rest : List Tok8) (n : Nat),
    s.Inv → s.fault = false → s.phase = .idle →
    s.inPort = p.map dataTok8 ++ endTok8 :: rest → noReset n s → run n s = .next t →
    t.out <+: s.out ++ messageTokens p ∨ s.out ++ messageTokens p <+: t.out) ∧
  (∀ s u : State, s.Inv → s.phase = .drain → step s = .next u → u.out = s.out ++ [endTok8] →
    u.phase = .idle ∧ u.dfBuf = [] ∧ u.QueuesEmpty)

/-- Every payload that fits is encoded (R87, R89, R91): a host that offers the message and then takes
gets exactly the message's tokens, after exactly `n + 1` `DF.EMIT` and `4 * ceil_div(n, 3) + 1` `OUT`
steps, and the block is as it was before the message. -/
def Obligations.EveryPayloadIsEncoded : Prop :=
  ∀ (s : State) (p : List Byte) (rest : List Tok8) (hs : List HostAction),
    let n := (Config.deflateFn p).length
    let k := (n + 1) + (4 * ceilDiv3 n + 1)
    s.Inv → s.fault = false → s.phase = .idle →
    (∀ m, s.maxPayload = some m → p.length ≤ m) →
    s.inPort = p.map dataTok8 ++ endTok8 :: rest →
    s.host = List.replicate (p.length + 1) .offer ++ List.replicate k .take ++ hs →
    run (p.length + 1 + k) s =
      .next { s with inPort := rest, host := hs, out := s.out ++ messageTokens p }

/-- Progress (R89), after `IN.END` is accepted. First, on every list of host actions without reset, up to
and including the step that ends the message: the `DF.EMIT` steps taken and the tokens left in `DF_OUTQ`
make `n + 1`, the `OUT` steps taken and the tokens still owed make `4 * ceil_div(n, 3) + 1`, every
other step is a wait, and the block is in DRAIN, or IDLE with exactly these counts and the message
emitted. Second, a host that takes every token it is offered, and does as it likes but reset where none is
pending, gets the message's END in exactly that many steps. -/
def Obligations.ProgressInExactSteps : Prop :=
  ∀ (s : State) (rest : List Tok8) (hs : List HostAction),
    let n := (Config.deflateFn s.dfBuf).length
    let emits := n + 1
    let outs := 4 * ceilDiv3 n + 1
    s.Inv → s.fault = false → s.phase ≠ .drain →
    s.inPort = endTok8 :: rest → s.host = .offer :: hs →
    ∃ u, step s = .next u ∧
      (∀ m t, noReset m u → (∀ j v, j < m → run j u = .next v → v.phase = .drain) →
        run m u = .next t →
        countSteps StepKind.isDfEmit m u + t.dfOutq.length = emits ∧
        countSteps StepKind.isEmitOut m u + t.pendingOut.length = outs ∧
        countSteps StepKind.isDfEmit m u + countSteps StepKind.isEmitOut m u +
          countSteps StepKind.isWait m u = m ∧
        (t.phase = .drain ∨
          (t.phase = .idle ∧ countSteps StepKind.isDfEmit m u = emits ∧
            countSteps StepKind.isEmitOut m u = outs ∧ t.out = s.out ++ messageTokens s.dfBuf))) ∧
      (noReset (emits + outs) u →
        (∀ j v, j < emits + outs → run j u = .next v → v.pkOutq ≠ [] →
          v.host.head? = some .take) →
        (∀ j v, j < emits + outs → run j u = .next v → v.phase = .drain) ∧
        ∃ t, run (emits + outs) u = .next t ∧ t.phase = .idle ∧
          t.out = s.out ++ messageTokens s.dfBuf)

/-- Independence (R90): for two messages with one payload, from any two IDLE states of the invariant,
under any two hosts without reset and after any numbers of steps, the tokens emitted up to a first END
are prefixes of one another (so two complete messages, each with its END last, are equal). -/
def Obligations.MessageOutputIndependent : Prop :=
  ∀ (s1 s2 t1 t2 : State) (p : List Byte) (rest1 rest2 out1 out2 : List Tok8) (n1 n2 : Nat),
    s1.Inv → s1.fault = false → s1.phase = .idle →
    s2.Inv → s2.fault = false → s2.phase = .idle →
    s1.inPort = p.map dataTok8 ++ endTok8 :: rest1 →
    s2.inPort = p.map dataTok8 ++ endTok8 :: rest2 →
    noReset n1 s1 → noReset n2 s2 → run n1 s1 = .next t1 → run n2 s2 = .next t2 →
    t1.out = s1.out ++ out1 → t2.out = s2.out ++ out2 →
    endTok8 ∉ out1.dropLast → endTok8 ∉ out2.dropLast →
    out1 <+: out2 ∨ out2 <+: out1

/-- Reset in the middle of a message (R184): what was emitted without an END is a prefix of the
message's DATA tokens, and the reset step emits nothing and discards the rest. -/
def Obligations.ResetCutsMessageShort : Prop :=
  ∀ (s t : State) (p : List Byte) (rest sent : List Tok8) (n : Nat) (hs : List HostAction),
    s.Inv → s.fault = false → s.phase = .idle →
    s.inPort = p.map dataTok8 ++ endTok8 :: rest → noReset n s →
    run n s = .next t → t.host = .reset :: hs →
    t.out = s.out ++ sent → endTok8 ∉ sent →
    sent <+: characterTokens (Config.deflateFn p) ∧
    ∃ u, step t = .next u ∧ u.out = t.out ∧ u.phase = .idle ∧ u.dfBuf = [] ∧ u.QueuesEmpty

/-- The model's reading (log 5): the parameter `MAX_PAYLOAD` is fixed when the block is built; no step
changes it, reset included. -/
def Obligations.CapacityIsFixed : Prop :=
  ∀ s u : State, step s = .next u → u.maxPayload = s.maxPayload

/-- No token is dropped, repeated or reordered (R86, R50): from a state of the invariant, in every step
but reset, what has left on `OUT` followed by what the block still owes the host is the same before and
after, but for the step that accepts `IN.END`, where the block owed nothing and then owes the message. -/
def Obligations.OwedOutputIsConserved : Prop :=
  ∀ s u : State, s.Inv → step s = .next u → s.host.head? ≠ some .reset →
    u.out ++ u.pendingOut = s.out ++ s.pendingOut ∨
    (s.phase ≠ .drain ∧ u.phase = .drain ∧ s.pendingOut = [] ∧ u.out = s.out ∧
      u.pendingOut = messageTokens s.dfBuf)
end

