-- ==== Sys2Proof/Laws/Decode.lean ====
section
/-!
SUPPORT. The fields of the token words the block builds (30_encoding.md R61, R62), and what each
link's decoder answers by the kind of the word.
-/

namespace Sys2Proof

@[simp] theorem kind8_dataTok8 (b : Byte) : kind8 (dataTok8 b) = kindData := by
  revert b; decide

@[simp] theorem data8_dataTok8 (b : Byte) : data8 (dataTok8 b) = b := by
  revert b; decide

@[simp] theorem kind8_endTok8 : kind8 endTok8 = kindEnd := by decide

@[simp] theorem data8_endTok8 : data8 endTok8 = 0x00#8 := by decide

@[simp] theorem kind8_abortTok8 : kind8 abortTok8 = kindAbort := by decide

@[simp] theorem data8_abortTok8 : data8 abortTok8 = 0x00#8 := by decide

@[simp] theorem kind6_dataTok6 (k : Code) : kind6 (dataTok6 k) = kindData := by
  revert k; decide

@[simp] theorem data6_dataTok6 (k : Code) : data6 (dataTok6 k) = k := by
  revert k; decide

@[simp] theorem kind6_endTok6 : kind6 endTok6 = kindEnd := by decide

@[simp] theorem data6_endTok6 : data6 endTok6 = 0b000000#6 := by decide

/-- A DATA word of a `TOK8` link is the word of its byte. -/
theorem dataTok8_data8 {t : Tok8} : kind8 t = kindData → dataTok8 (data8 t) = t := by
  revert t; decide

/-- A DATA word of `PK2MP` is the word of its code. -/
theorem dataTok6_data6 {t : Tok6} : kind6 t = kindData → dataTok6 (data6 t) = t := by
  revert t; decide

/-- An END word with data 0 is the END token. -/
theorem endTok8_of_fields {t : Tok8} : kind8 t = kindEnd → data8 t = 0x00#8 → t = endTok8 := by
  revert t; decide

/-- An ABORT word with data 0 is the ABORT token. -/
theorem abortTok8_of_fields {t : Tok8} :
    kind8 t = kindAbort → data8 t = 0x00#8 → t = abortTok8 := by
  revert t; decide

@[simp] theorem dataTok8_ne_endTok8 (b : Byte) : dataTok8 b ≠ endTok8 := by
  revert b; decide

@[simp] theorem dataTok6_ne_endTok6 (k : Code) : dataTok6 k ≠ endTok6 := by
  revert k; decide

/-- What the decoder of `IN` can answer (R67). -/
theorem decodeIn_cases (t : Tok8) :
    (kind8 t = kindData ∧ decodeIn t = .ok (.inData (data8 t))) ∨
    (t = endTok8 ∧ decodeIn t = .ok .inEnd) ∨
    (t = abortTok8 ∧ decodeIn t = .ok .inAbort) ∨
    ((kind8 t = kindEnd ∨ kind8 t = kindAbort) ∧ data8 t ≠ 0x00#8 ∧
      decodeIn t = .error .ctrlDataNonzero) ∨
    (kind8 t = 0b11#2 ∧ decodeIn t = .error .reservedKind) := by
  revert t; decide

/-- What the decoder of `DF2PK` can answer (R66, R69). -/
theorem decodeDf2pk_cases (t : Tok8) :
    (kind8 t = kindData ∧ decodeDf2pk t = .ok (.pkData (data8 t))) ∨
    (t = endTok8 ∧ decodeDf2pk t = .ok .pkEnd) ∨
    (kind8 t ≠ kindData ∧ t ≠ endTok8 ∧ decodeDf2pk t = .error .internalKind) := by
  revert t; decide

/-- What the decoder of `PK2MP` can answer (R66, R69). -/
theorem decodePk2mp_cases (t : Tok6) :
    (kind6 t = kindData ∧ decodePk2mp t = .ok (.mpData (data6 t))) ∨
    (t = endTok6 ∧ decodePk2mp t = .ok .mpEnd) ∨
    (kind6 t ≠ kindData ∧ t ≠ endTok6 ∧ decodePk2mp t = .error .internalKind) := by
  revert t; decide

end Sys2Proof
end

