-- ==== Sys2Proof/Laws/State.lean ====
section
/-!
SUPPORT. One lemma per field of State per named update of Machine/Ops.lean, each true by definition, so
that no proof unfolds a record update. The named values of the updates that are not plain writes are in
Laws/Ops.lean.
-/

namespace Sys2Proof.Machine

variable (s : State)

/-! ## raiseFault -/

@[simp] theorem State.raiseFault_phase (c : FaultCause) (t : BitVec 10) : (s.raiseFault c t).phase = s.phase := rfl
@[simp] theorem State.raiseFault_fault (c : FaultCause) (t : BitVec 10) : (s.raiseFault c t).fault = true := rfl
@[simp] theorem State.raiseFault_faultCause (c : FaultCause) (t : BitVec 10) : (s.raiseFault c t).faultCause = c := rfl
@[simp] theorem State.raiseFault_faultToken (c : FaultCause) (t : BitVec 10) : (s.raiseFault c t).faultToken = t := rfl
@[simp] theorem State.raiseFault_dfBuf (c : FaultCause) (t : BitVec 10) : (s.raiseFault c t).dfBuf = s.dfBuf := rfl
@[simp] theorem State.raiseFault_dfOutq (c : FaultCause) (t : BitVec 10) : (s.raiseFault c t).dfOutq = s.dfOutq := rfl
@[simp] theorem State.raiseFault_pkCnt (c : FaultCause) (t : BitVec 10) : (s.raiseFault c t).pkCnt = s.pkCnt := rfl
@[simp] theorem State.raiseFault_pkB1 (c : FaultCause) (t : BitVec 10) : (s.raiseFault c t).pkB1 = s.pkB1 := rfl
@[simp] theorem State.raiseFault_pkB2 (c : FaultCause) (t : BitVec 10) : (s.raiseFault c t).pkB2 = s.pkB2 := rfl
@[simp] theorem State.raiseFault_pkOutq (c : FaultCause) (t : BitVec 10) : (s.raiseFault c t).pkOutq = s.pkOutq := rfl
@[simp] theorem State.raiseFault_inPort (c : FaultCause) (t : BitVec 10) : (s.raiseFault c t).inPort = s.inPort := rfl
@[simp] theorem State.raiseFault_out (c : FaultCause) (t : BitVec 10) : (s.raiseFault c t).out = s.out := rfl
@[simp] theorem State.raiseFault_host (c : FaultCause) (t : BitVec 10) : (s.raiseFault c t).host = s.host := rfl
@[simp] theorem State.raiseFault_maxPayload (c : FaultCause) (t : BitVec 10) : (s.raiseFault c t).maxPayload = s.maxPayload := rfl

/-! ## rst -/

@[simp] theorem State.rst_phase : s.rst.phase = .idle := rfl
@[simp] theorem State.rst_fault : s.rst.fault = false := rfl
@[simp] theorem State.rst_faultCause : s.rst.faultCause = .none := rfl
@[simp] theorem State.rst_faultToken : s.rst.faultToken = 0x000#10 := rfl
@[simp] theorem State.rst_dfBuf : s.rst.dfBuf = [] := rfl
@[simp] theorem State.rst_dfOutq : s.rst.dfOutq = [] := rfl
@[simp] theorem State.rst_pkCnt : s.rst.pkCnt = 0 := rfl
@[simp] theorem State.rst_pkB1 : s.rst.pkB1 = 0x00#8 := rfl
@[simp] theorem State.rst_pkB2 : s.rst.pkB2 = 0x00#8 := rfl
@[simp] theorem State.rst_pkOutq : s.rst.pkOutq = [] := rfl
@[simp] theorem State.rst_inPort : s.rst.inPort = s.inPort := rfl
@[simp] theorem State.rst_out : s.rst.out = s.out := rfl
@[simp] theorem State.rst_host : s.rst.host = s.host := rfl
@[simp] theorem State.rst_maxPayload : s.rst.maxPayload = s.maxPayload := rfl

/-! ## appendPayload -/

@[simp] theorem State.appendPayload_phase (b : Byte) : (s.appendPayload b).phase = .recv := rfl
@[simp] theorem State.appendPayload_fault (b : Byte) : (s.appendPayload b).fault = s.fault := rfl
@[simp] theorem State.appendPayload_faultCause (b : Byte) : (s.appendPayload b).faultCause = s.faultCause := rfl
@[simp] theorem State.appendPayload_faultToken (b : Byte) : (s.appendPayload b).faultToken = s.faultToken := rfl
@[simp] theorem State.appendPayload_dfBuf (b : Byte) : (s.appendPayload b).dfBuf = s.dfBuf ++ [b] := rfl
@[simp] theorem State.appendPayload_dfOutq (b : Byte) : (s.appendPayload b).dfOutq = s.dfOutq := rfl
@[simp] theorem State.appendPayload_pkCnt (b : Byte) : (s.appendPayload b).pkCnt = s.pkCnt := rfl
@[simp] theorem State.appendPayload_pkB1 (b : Byte) : (s.appendPayload b).pkB1 = s.pkB1 := rfl
@[simp] theorem State.appendPayload_pkB2 (b : Byte) : (s.appendPayload b).pkB2 = s.pkB2 := rfl
@[simp] theorem State.appendPayload_pkOutq (b : Byte) : (s.appendPayload b).pkOutq = s.pkOutq := rfl
@[simp] theorem State.appendPayload_inPort (b : Byte) : (s.appendPayload b).inPort = s.inPort := rfl
@[simp] theorem State.appendPayload_out (b : Byte) : (s.appendPayload b).out = s.out := rfl
@[simp] theorem State.appendPayload_host (b : Byte) : (s.appendPayload b).host = s.host := rfl
@[simp] theorem State.appendPayload_maxPayload (b : Byte) : (s.appendPayload b).maxPayload = s.maxPayload := rfl

/-! ## compress -/

@[simp] theorem State.compress_phase : s.compress.phase = s.phase := rfl
@[simp] theorem State.compress_fault : s.compress.fault = s.fault := rfl
@[simp] theorem State.compress_faultCause : s.compress.faultCause = s.faultCause := rfl
@[simp] theorem State.compress_faultToken : s.compress.faultToken = s.faultToken := rfl
@[simp] theorem State.compress_dfBuf : s.compress.dfBuf = [] := rfl
@[simp] theorem State.compress_dfOutq : s.compress.dfOutq = compressedTokens (Config.deflateFn s.dfBuf) := rfl
@[simp] theorem State.compress_pkCnt : s.compress.pkCnt = s.pkCnt := rfl
@[simp] theorem State.compress_pkB1 : s.compress.pkB1 = s.pkB1 := rfl
@[simp] theorem State.compress_pkB2 : s.compress.pkB2 = s.pkB2 := rfl
@[simp] theorem State.compress_pkOutq : s.compress.pkOutq = s.pkOutq := rfl
@[simp] theorem State.compress_inPort : s.compress.inPort = s.inPort := rfl
@[simp] theorem State.compress_out : s.compress.out = s.out := rfl
@[simp] theorem State.compress_host : s.compress.host = s.host := rfl
@[simp] theorem State.compress_maxPayload : s.compress.maxPayload = s.maxPayload := rfl

/-! ## enterPhase -/

@[simp] theorem State.enterPhase_phase (p : Phase) : (s.enterPhase p).phase = p := rfl
@[simp] theorem State.enterPhase_fault (p : Phase) : (s.enterPhase p).fault = s.fault := rfl
@[simp] theorem State.enterPhase_faultCause (p : Phase) : (s.enterPhase p).faultCause = s.faultCause := rfl
@[simp] theorem State.enterPhase_faultToken (p : Phase) : (s.enterPhase p).faultToken = s.faultToken := rfl
@[simp] theorem State.enterPhase_dfBuf (p : Phase) : (s.enterPhase p).dfBuf = s.dfBuf := rfl
@[simp] theorem State.enterPhase_dfOutq (p : Phase) : (s.enterPhase p).dfOutq = s.dfOutq := rfl
@[simp] theorem State.enterPhase_pkCnt (p : Phase) : (s.enterPhase p).pkCnt = s.pkCnt := rfl
@[simp] theorem State.enterPhase_pkB1 (p : Phase) : (s.enterPhase p).pkB1 = s.pkB1 := rfl
@[simp] theorem State.enterPhase_pkB2 (p : Phase) : (s.enterPhase p).pkB2 = s.pkB2 := rfl
@[simp] theorem State.enterPhase_pkOutq (p : Phase) : (s.enterPhase p).pkOutq = s.pkOutq := rfl
@[simp] theorem State.enterPhase_inPort (p : Phase) : (s.enterPhase p).inPort = s.inPort := rfl
@[simp] theorem State.enterPhase_out (p : Phase) : (s.enterPhase p).out = s.out := rfl
@[simp] theorem State.enterPhase_host (p : Phase) : (s.enterPhase p).host = s.host := rfl
@[simp] theorem State.enterPhase_maxPayload (p : Phase) : (s.enterPhase p).maxPayload = s.maxPayload := rfl

/-! ## clearPayload -/

@[simp] theorem State.clearPayload_phase : s.clearPayload.phase = s.phase := rfl
@[simp] theorem State.clearPayload_fault : s.clearPayload.fault = s.fault := rfl
@[simp] theorem State.clearPayload_faultCause : s.clearPayload.faultCause = s.faultCause := rfl
@[simp] theorem State.clearPayload_faultToken : s.clearPayload.faultToken = s.faultToken := rfl
@[simp] theorem State.clearPayload_dfBuf : s.clearPayload.dfBuf = [] := rfl
@[simp] theorem State.clearPayload_dfOutq : s.clearPayload.dfOutq = s.dfOutq := rfl
@[simp] theorem State.clearPayload_pkCnt : s.clearPayload.pkCnt = s.pkCnt := rfl
@[simp] theorem State.clearPayload_pkB1 : s.clearPayload.pkB1 = s.pkB1 := rfl
@[simp] theorem State.clearPayload_pkB2 : s.clearPayload.pkB2 = s.pkB2 := rfl
@[simp] theorem State.clearPayload_pkOutq : s.clearPayload.pkOutq = s.pkOutq := rfl
@[simp] theorem State.clearPayload_inPort : s.clearPayload.inPort = s.inPort := rfl
@[simp] theorem State.clearPayload_out : s.clearPayload.out = s.out := rfl
@[simp] theorem State.clearPayload_host : s.clearPayload.host = s.host := rfl
@[simp] theorem State.clearPayload_maxPayload : s.clearPayload.maxPayload = s.maxPayload := rfl

/-! ## holdFirst -/

@[simp] theorem State.holdFirst_phase (b : Byte) : (s.holdFirst b).phase = s.phase := rfl
@[simp] theorem State.holdFirst_fault (b : Byte) : (s.holdFirst b).fault = s.fault := rfl
@[simp] theorem State.holdFirst_faultCause (b : Byte) : (s.holdFirst b).faultCause = s.faultCause := rfl
@[simp] theorem State.holdFirst_faultToken (b : Byte) : (s.holdFirst b).faultToken = s.faultToken := rfl
@[simp] theorem State.holdFirst_dfBuf (b : Byte) : (s.holdFirst b).dfBuf = s.dfBuf := rfl
@[simp] theorem State.holdFirst_dfOutq (b : Byte) : (s.holdFirst b).dfOutq = s.dfOutq := rfl
@[simp] theorem State.holdFirst_pkCnt (b : Byte) : (s.holdFirst b).pkCnt = 1 := rfl
@[simp] theorem State.holdFirst_pkB1 (b : Byte) : (s.holdFirst b).pkB1 = b := rfl
@[simp] theorem State.holdFirst_pkB2 (b : Byte) : (s.holdFirst b).pkB2 = s.pkB2 := rfl
@[simp] theorem State.holdFirst_pkOutq (b : Byte) : (s.holdFirst b).pkOutq = s.pkOutq := rfl
@[simp] theorem State.holdFirst_inPort (b : Byte) : (s.holdFirst b).inPort = s.inPort := rfl
@[simp] theorem State.holdFirst_out (b : Byte) : (s.holdFirst b).out = s.out := rfl
@[simp] theorem State.holdFirst_host (b : Byte) : (s.holdFirst b).host = s.host := rfl
@[simp] theorem State.holdFirst_maxPayload (b : Byte) : (s.holdFirst b).maxPayload = s.maxPayload := rfl

/-! ## holdSecond -/

@[simp] theorem State.holdSecond_phase (b : Byte) : (s.holdSecond b).phase = s.phase := rfl
@[simp] theorem State.holdSecond_fault (b : Byte) : (s.holdSecond b).fault = s.fault := rfl
@[simp] theorem State.holdSecond_faultCause (b : Byte) : (s.holdSecond b).faultCause = s.faultCause := rfl
@[simp] theorem State.holdSecond_faultToken (b : Byte) : (s.holdSecond b).faultToken = s.faultToken := rfl
@[simp] theorem State.holdSecond_dfBuf (b : Byte) : (s.holdSecond b).dfBuf = s.dfBuf := rfl
@[simp] theorem State.holdSecond_dfOutq (b : Byte) : (s.holdSecond b).dfOutq = s.dfOutq := rfl
@[simp] theorem State.holdSecond_pkCnt (b : Byte) : (s.holdSecond b).pkCnt = 2 := rfl
@[simp] theorem State.holdSecond_pkB1 (b : Byte) : (s.holdSecond b).pkB1 = s.pkB1 := rfl
@[simp] theorem State.holdSecond_pkB2 (b : Byte) : (s.holdSecond b).pkB2 = b := rfl
@[simp] theorem State.holdSecond_pkOutq (b : Byte) : (s.holdSecond b).pkOutq = s.pkOutq := rfl
@[simp] theorem State.holdSecond_inPort (b : Byte) : (s.holdSecond b).inPort = s.inPort := rfl
@[simp] theorem State.holdSecond_out (b : Byte) : (s.holdSecond b).out = s.out := rfl
@[simp] theorem State.holdSecond_host (b : Byte) : (s.holdSecond b).host = s.host := rfl
@[simp] theorem State.holdSecond_maxPayload (b : Byte) : (s.holdSecond b).maxPayload = s.maxPayload := rfl

/-! ## queueTokens -/

@[simp] theorem State.queueTokens_phase (q : List Tok6) : (s.queueTokens q).phase = s.phase := rfl
@[simp] theorem State.queueTokens_fault (q : List Tok6) : (s.queueTokens q).fault = s.fault := rfl
@[simp] theorem State.queueTokens_faultCause (q : List Tok6) : (s.queueTokens q).faultCause = s.faultCause := rfl
@[simp] theorem State.queueTokens_faultToken (q : List Tok6) : (s.queueTokens q).faultToken = s.faultToken := rfl
@[simp] theorem State.queueTokens_dfBuf (q : List Tok6) : (s.queueTokens q).dfBuf = s.dfBuf := rfl
@[simp] theorem State.queueTokens_dfOutq (q : List Tok6) : (s.queueTokens q).dfOutq = s.dfOutq := rfl
@[simp] theorem State.queueTokens_pkCnt (q : List Tok6) : (s.queueTokens q).pkCnt = 0 := rfl
@[simp] theorem State.queueTokens_pkB1 (q : List Tok6) : (s.queueTokens q).pkB1 = 0x00#8 := rfl
@[simp] theorem State.queueTokens_pkB2 (q : List Tok6) : (s.queueTokens q).pkB2 = 0x00#8 := rfl
@[simp] theorem State.queueTokens_pkOutq (q : List Tok6) : (s.queueTokens q).pkOutq = q := rfl
@[simp] theorem State.queueTokens_inPort (q : List Tok6) : (s.queueTokens q).inPort = s.inPort := rfl
@[simp] theorem State.queueTokens_out (q : List Tok6) : (s.queueTokens q).out = s.out := rfl
@[simp] theorem State.queueTokens_host (q : List Tok6) : (s.queueTokens q).host = s.host := rfl
@[simp] theorem State.queueTokens_maxPayload (q : List Tok6) : (s.queueTokens q).maxPayload = s.maxPayload := rfl

/-! ## emit -/

@[simp] theorem State.emit_phase (t : Tok8) : (s.emit t).phase = s.phase := rfl
@[simp] theorem State.emit_fault (t : Tok8) : (s.emit t).fault = s.fault := rfl
@[simp] theorem State.emit_faultCause (t : Tok8) : (s.emit t).faultCause = s.faultCause := rfl
@[simp] theorem State.emit_faultToken (t : Tok8) : (s.emit t).faultToken = s.faultToken := rfl
@[simp] theorem State.emit_dfBuf (t : Tok8) : (s.emit t).dfBuf = s.dfBuf := rfl
@[simp] theorem State.emit_dfOutq (t : Tok8) : (s.emit t).dfOutq = s.dfOutq := rfl
@[simp] theorem State.emit_pkCnt (t : Tok8) : (s.emit t).pkCnt = s.pkCnt := rfl
@[simp] theorem State.emit_pkB1 (t : Tok8) : (s.emit t).pkB1 = s.pkB1 := rfl
@[simp] theorem State.emit_pkB2 (t : Tok8) : (s.emit t).pkB2 = s.pkB2 := rfl
@[simp] theorem State.emit_pkOutq (t : Tok8) : (s.emit t).pkOutq = s.pkOutq := rfl
@[simp] theorem State.emit_inPort (t : Tok8) : (s.emit t).inPort = s.inPort := rfl
@[simp] theorem State.emit_out (t : Tok8) : (s.emit t).out = s.out ++ [t] := rfl
@[simp] theorem State.emit_host (t : Tok8) : (s.emit t).host = s.host := rfl
@[simp] theorem State.emit_maxPayload (t : Tok8) : (s.emit t).maxPayload = s.maxPayload := rfl

/-! ## popHost -/

@[simp] theorem State.popHost_phase : s.popHost.phase = s.phase := rfl
@[simp] theorem State.popHost_fault : s.popHost.fault = s.fault := rfl
@[simp] theorem State.popHost_faultCause : s.popHost.faultCause = s.faultCause := rfl
@[simp] theorem State.popHost_faultToken : s.popHost.faultToken = s.faultToken := rfl
@[simp] theorem State.popHost_dfBuf : s.popHost.dfBuf = s.dfBuf := rfl
@[simp] theorem State.popHost_dfOutq : s.popHost.dfOutq = s.dfOutq := rfl
@[simp] theorem State.popHost_pkCnt : s.popHost.pkCnt = s.pkCnt := rfl
@[simp] theorem State.popHost_pkB1 : s.popHost.pkB1 = s.pkB1 := rfl
@[simp] theorem State.popHost_pkB2 : s.popHost.pkB2 = s.pkB2 := rfl
@[simp] theorem State.popHost_pkOutq : s.popHost.pkOutq = s.pkOutq := rfl
@[simp] theorem State.popHost_inPort : s.popHost.inPort = s.inPort := rfl
@[simp] theorem State.popHost_out : s.popHost.out = s.out := rfl
@[simp] theorem State.popHost_host : s.popHost.host = s.host.tail := rfl
@[simp] theorem State.popHost_maxPayload : s.popHost.maxPayload = s.maxPayload := rfl

/-! ## popIn -/

@[simp] theorem State.popIn_phase : s.popIn.phase = s.phase := rfl
@[simp] theorem State.popIn_fault : s.popIn.fault = s.fault := rfl
@[simp] theorem State.popIn_faultCause : s.popIn.faultCause = s.faultCause := rfl
@[simp] theorem State.popIn_faultToken : s.popIn.faultToken = s.faultToken := rfl
@[simp] theorem State.popIn_dfBuf : s.popIn.dfBuf = s.dfBuf := rfl
@[simp] theorem State.popIn_dfOutq : s.popIn.dfOutq = s.dfOutq := rfl
@[simp] theorem State.popIn_pkCnt : s.popIn.pkCnt = s.pkCnt := rfl
@[simp] theorem State.popIn_pkB1 : s.popIn.pkB1 = s.pkB1 := rfl
@[simp] theorem State.popIn_pkB2 : s.popIn.pkB2 = s.pkB2 := rfl
@[simp] theorem State.popIn_pkOutq : s.popIn.pkOutq = s.pkOutq := rfl
@[simp] theorem State.popIn_inPort : s.popIn.inPort = s.inPort.tail := rfl
@[simp] theorem State.popIn_out : s.popIn.out = s.out := rfl
@[simp] theorem State.popIn_host : s.popIn.host = s.host := rfl
@[simp] theorem State.popIn_maxPayload : s.popIn.maxPayload = s.maxPayload := rfl

/-! ## popDfOutq -/

@[simp] theorem State.popDfOutq_phase : s.popDfOutq.phase = s.phase := rfl
@[simp] theorem State.popDfOutq_fault : s.popDfOutq.fault = s.fault := rfl
@[simp] theorem State.popDfOutq_faultCause : s.popDfOutq.faultCause = s.faultCause := rfl
@[simp] theorem State.popDfOutq_faultToken : s.popDfOutq.faultToken = s.faultToken := rfl
@[simp] theorem State.popDfOutq_dfBuf : s.popDfOutq.dfBuf = s.dfBuf := rfl
@[simp] theorem State.popDfOutq_dfOutq : s.popDfOutq.dfOutq = s.dfOutq.tail := rfl
@[simp] theorem State.popDfOutq_pkCnt : s.popDfOutq.pkCnt = s.pkCnt := rfl
@[simp] theorem State.popDfOutq_pkB1 : s.popDfOutq.pkB1 = s.pkB1 := rfl
@[simp] theorem State.popDfOutq_pkB2 : s.popDfOutq.pkB2 = s.pkB2 := rfl
@[simp] theorem State.popDfOutq_pkOutq : s.popDfOutq.pkOutq = s.pkOutq := rfl
@[simp] theorem State.popDfOutq_inPort : s.popDfOutq.inPort = s.inPort := rfl
@[simp] theorem State.popDfOutq_out : s.popDfOutq.out = s.out := rfl
@[simp] theorem State.popDfOutq_host : s.popDfOutq.host = s.host := rfl
@[simp] theorem State.popDfOutq_maxPayload : s.popDfOutq.maxPayload = s.maxPayload := rfl

/-! ## popPkOutq -/

@[simp] theorem State.popPkOutq_phase : s.popPkOutq.phase = s.phase := rfl
@[simp] theorem State.popPkOutq_fault : s.popPkOutq.fault = s.fault := rfl
@[simp] theorem State.popPkOutq_faultCause : s.popPkOutq.faultCause = s.faultCause := rfl
@[simp] theorem State.popPkOutq_faultToken : s.popPkOutq.faultToken = s.faultToken := rfl
@[simp] theorem State.popPkOutq_dfBuf : s.popPkOutq.dfBuf = s.dfBuf := rfl
@[simp] theorem State.popPkOutq_dfOutq : s.popPkOutq.dfOutq = s.dfOutq := rfl
@[simp] theorem State.popPkOutq_pkCnt : s.popPkOutq.pkCnt = s.pkCnt := rfl
@[simp] theorem State.popPkOutq_pkB1 : s.popPkOutq.pkB1 = s.pkB1 := rfl
@[simp] theorem State.popPkOutq_pkB2 : s.popPkOutq.pkB2 = s.pkB2 := rfl
@[simp] theorem State.popPkOutq_pkOutq : s.popPkOutq.pkOutq = s.pkOutq.tail := rfl
@[simp] theorem State.popPkOutq_inPort : s.popPkOutq.inPort = s.inPort := rfl
@[simp] theorem State.popPkOutq_out : s.popPkOutq.out = s.out := rfl
@[simp] theorem State.popPkOutq_host : s.popPkOutq.host = s.host := rfl
@[simp] theorem State.popPkOutq_maxPayload : s.popPkOutq.maxPayload = s.maxPayload := rfl

end Sys2Proof.Machine
end

