-- ==== Sys2Proof/Laws/Ops.lean ====
section
/-!
SUPPORT. For each shared operation one lemma that says what it can do: the readiness conditions as
propositions, the packer's writes by PK_CNT, the step the block chooses, and each instruction's next
states. Later proofs cite these and do not unfold the operations.
-/

namespace Sys2Proof.Machine

/-! ## Readiness -/

theorem inReady_iff (s : State) (t : Tok8) : s.inReady t = true ↔
    s.fault = false ∧ s.phase ≠ .drain ∧ ¬(kind8 t = kindData ∧ s.bufferFull = true) := by
  simp only [State.inReady, Bool.and_eq_true, Bool.not_eq_true', bne_iff_ne, ne_eq, and_assoc,
    Bool.and_eq_false_iff, beq_eq_false_iff_ne, not_and, Bool.not_eq_true]
  tauto

theorem packerReady_iff (s : State) :
    s.packerReady = true ↔ s.fault = false ∧ s.pkOutq = [] := by
  simp [State.packerReady]

theorem dfEmitReady_iff (s : State) :
    s.dfEmitReady = true ↔ s.fault = false ∧ s.phase = .drain ∧ s.pkOutq = [] := by
  simp only [State.dfEmitReady, Bool.and_eq_true, packerReady_iff, beq_iff_eq]
  tauto

/-- Where `DF.EMIT` may run the packer may take a token. -/
theorem packerReady_of_dfEmitReady {s : State} (h : s.dfEmitReady = true) :
    s.packerReady = true := by
  simp_all [State.dfEmitReady]

theorem mapperReady_iff (s : State) : s.mapperReady = true ↔ s.fault = false := by
  simp [State.mapperReady]

theorem bufferFull_iff (s : State) :
    s.bufferFull = true ↔ s.maxPayload = some s.dfBuf.length := by
  simp [State.bufferFull]

/-- The readiness of `IN` does not depend on what the host holds or does. -/
@[simp] theorem inReady_popHost_popIn (s : State) (t : Tok8) :
    s.popHost.popIn.inReady t = s.inReady t := rfl

/-- The packer's readiness does not depend on `DF_OUTQ` or the host. -/
@[simp] theorem packerReady_popHost_popDfOutq (s : State) :
    s.popHost.popDfOutq.packerReady = s.packerReady := rfl

/-- The mapper's readiness does not depend on `PK_OUTQ` or the host. -/
@[simp] theorem mapperReady_popHost_popPkOutq (s : State) :
    s.popHost.popPkOutq.mapperReady = s.mapperReady := rfl

/-! ## The packer's writes -/

theorem packByte_cases (s : State) (b : Byte) :
    (s.pkCnt = 0 ∧ s.packByte b = s.holdFirst b) ∨
    (s.pkCnt = 1 ∧ s.packByte b = s.holdSecond b) ∨
    (s.pkCnt = 2 ∧ s.packByte b = s.queueTokens ((group s.pkB1 s.pkB2 b).map dataTok6)) := by
  unfold State.packByte
  split
  · exact .inl ⟨‹_›, rfl⟩
  · exact .inr (.inl ⟨‹_›, rfl⟩)
  · exact .inr (.inr ⟨‹_›, rfl⟩)

theorem partialGroup_cases (s : State) :
    (s.pkCnt = 0 ∧ s.partialGroup = []) ∨
    (s.pkCnt = 1 ∧ s.partialGroup = group s.pkB1 0x00#8 0x00#8) ∨
    (s.pkCnt = 2 ∧ s.partialGroup = group s.pkB1 s.pkB2 0x00#8) := by
  unfold State.partialGroup
  split
  · exact .inl ⟨‹_›, rfl⟩
  · exact .inr (.inl ⟨‹_›, rfl⟩)
  · exact .inr (.inr ⟨‹_›, rfl⟩)

@[simp] theorem group_length (b1 b2 b3 : Byte) : (group b1 b2 b3).length = 4 := rfl

/-! ## The chosen step (R80) -/

/-- The guard of each row of R80: what the state holds where the block takes the step. -/
inductive StepGuard (s : State) : StepKind → Prop where
  | reset (host : s.host.head? = some .reset) : StepGuard s .reset
  | acceptIn (t : Tok8) (ts : List Tok8) (host : s.host.head? = some .offer)
      (offered : s.inPort = t :: ts) (ready : s.inReady t = true) : StepGuard s (.acceptIn t)
  | dfEmit (t : Tok8) (ts : List Tok8) (host : s.host.head? ≠ some .reset)
      (pending : s.dfOutq = t :: ts) (ready : s.dfEmitReady = true) : StepGuard s (.dfEmit t)
  | emitOut (t : Tok6) (ts : List Tok6) (host : s.host.head? = some .take)
      (pending : s.pkOutq = t :: ts) (ready : s.mapperReady = true) : StepGuard s (.emitOut t)
  | wait (host : s.host.head? ≠ some .reset) (idle : s.dfOutq = [] ∨ s.dfEmitReady = false) :
      StepGuard s .wait

/-- The block's own step has its guard wherever reset is not asserted. -/
theorem ownStep_guard (s : State) (h : s.host.head? ≠ some .reset) : StepGuard s s.ownStep := by
  unfold State.ownStep
  split
  · split
    · exact .dfEmit _ _ h ‹_› ‹_›
    · exact .wait h (.inr (by simpa using ‹¬s.dfEmitReady = true›))
  · exact .wait h (.inl ‹_›)

/-- The chosen step has its guard. -/
theorem chosenStep_guard (s : State) : StepGuard s s.chosenStep := by
  unfold State.chosenStep
  split
  next hh => exact .reset (by simp [hh])
  next hh =>
    split
    · split
      · exact .acceptIn _ _ (by simp [hh]) ‹_› ‹_›
      · exact ownStep_guard s (by simp [hh])
    · exact ownStep_guard s (by simp [hh])
  next hh =>
    split
    · split
      · exact .emitOut _ _ (by simp [hh]) ‹_› ‹_›
      · exact ownStep_guard s (by simp [hh])
    · exact ownStep_guard s (by simp [hh])
  next hh => exact ownStep_guard s (by simp [hh])
  next hh => exact ownStep_guard s (by simp [hh])

/-! ## The instructions' next states -/

theorem execInData_cases {b : Byte} {s t : State} (h : execInData b s = .next t) :
    (s.inReady (dataTok8 b) = true ∧ t = s.appendPayload b) ∨
    (s.inReady (dataTok8 b) = false ∧ t = s) := by
  unfold execInData at h
  split at h <;> simp_all

theorem execInEnd_cases {s t : State} (h : execInEnd s = .next t) :
    (s.inReady endTok8 = true ∧ t = s.compress.enterPhase .drain) ∨
    (s.inReady endTok8 = false ∧ t = s) := by
  unfold execInEnd at h
  split at h <;> simp_all

theorem execInAbort_cases {s t : State} (h : execInAbort s = .next t) :
    (s.inReady abortTok8 = true ∧ t = s.clearPayload.enterPhase .idle) ∨
    (s.inReady abortTok8 = false ∧ t = s) := by
  unfold execInAbort at h
  split at h <;> simp_all

theorem execPkData_cases {b : Byte} {s t : State} (h : execPkData b s = .next t) :
    (s.packerReady = true ∧ t = s.packByte b) ∨ (s.packerReady = false ∧ t = s) := by
  unfold execPkData at h
  split at h <;> simp_all

theorem execPkEnd_cases {s t : State} (h : execPkEnd s = .next t) :
    (s.packerReady = true ∧ t = s.flushGroup) ∨ (s.packerReady = false ∧ t = s) := by
  unfold execPkEnd at h
  split at h <;> simp_all

theorem execMpData_cases {k : Code} {s t : State} (h : execMpData k s = .next t) :
    (s.mapperReady = true ∧ t = s.emit (dataTok8 (alphaCode k))) ∨
    (s.mapperReady = false ∧ t = s) := by
  unfold execMpData at h
  split at h <;> simp_all

theorem execMpEnd_cases {s t : State} (h : execMpEnd s = .next t) :
    (s.mapperReady = true ∧ t = (s.emit endTok8).enterPhase .idle) ∨
    (s.mapperReady = false ∧ t = s) := by
  unfold execMpEnd at h
  split at h <;> simp_all

/-- A token whose word decodes is run by `exec`. -/
theorem runToken_ok {lt : LinkToken} {i : Instr} (h : decode lt = .ok i) (s : State) :
    runToken lt s = exec i s := by
  simp [runToken, h]

/-- A token whose word is rejected raises its fault. -/
theorem runToken_error {lt : LinkToken} {r : Reject} (h : decode lt = .error r) (s : State) :
    runToken lt s = .next (s.raiseFault (rejectCause r) (tokenWord lt)) := by
  simp [runToken, h]

end Sys2Proof.Machine
end

