-- ==== Sys2Proof/Laws/Pending.lean ====
section
/-!
SUPPORT. The lemmas of the functions that say what the block holds and owes: the bytes in the packer, the
image of a `PK2MP` token on `OUT`, and the tokens owed to the host.
-/

namespace Sys2Proof.Machine

/-- The held bytes by PK_CNT. -/
theorem heldBytes_cases (s : State) :
    (s.pkCnt = 0 ∧ s.heldBytes = []) ∨ (s.pkCnt = 1 ∧ s.heldBytes = [s.pkB1]) ∨
    (s.pkCnt = 2 ∧ s.heldBytes = [s.pkB1, s.pkB2]) := by
  unfold State.heldBytes
  split
  · exact .inl ⟨‹_›, rfl⟩
  · exact .inr (.inl ⟨‹_›, rfl⟩)
  · exact .inr (.inr ⟨‹_›, rfl⟩)

/-- The codes that `PK.END` flushes are PACK of the held bytes (R123, R127). -/
theorem partialGroup_eq_pack (s : State) : s.partialGroup = pack s.heldBytes := by
  rcases heldBytes_cases s with ⟨hc, hb⟩ | ⟨hc, hb⟩ | ⟨hc, hb⟩ <;>
    rw [hb] <;> simp [State.partialGroup, hc, pack, ceilDiv3, byteAt]

@[simp] theorem outToken_dataTok6 (k : Code) : outToken (dataTok6 k) = dataTok8 (alphaCode k) := by
  simp [outToken, dataTok6_ne_endTok6]

@[simp] theorem outToken_endTok6 : outToken endTok6 = endTok8 := rfl

/-- A block with empty queues owes nothing. -/
theorem pendingOut_of_queuesEmpty {s : State} (h : s.QueuesEmpty) : s.pendingOut = [] := by
  simp [State.pendingOut, h.1, h.2.2]

/-- While the compressed bytes `c` and END are in `DF_OUTQ`, the block owes the tokens of `PK_OUTQ`, and then
the characters of the held bytes and `c`, and END. -/
theorem pendingOut_of_compressedTokens {s : State} {c : List Byte}
    (h : s.dfOutq = compressedTokens c) :
    s.pendingOut =
      s.pkOutq.map outToken ++ (characterTokens (s.heldBytes ++ c) ++ [endTok8]) := by
  have nonempty : compressedTokens c ≠ [] := by simp [compressedTokens]
  have bytes : (compressedTokens c).dropLast.map data8 = c := by
    simp [compressedTokens, Function.comp_def]
  rw [State.pendingOut, h, if_neg nonempty, bytes]

/-- Once `DF_OUTQ` is empty, the block owes the tokens of `PK_OUTQ`. -/
theorem pendingOut_of_dfOutq_nil {s : State} (h : s.dfOutq = []) :
    s.pendingOut = s.pkOutq.map outToken := by
  simp [State.pendingOut, h]

end Sys2Proof.Machine
end

