-- ==== Sys2Proof/Laws/PerInstr.lean ====
section
/-!
SUPPORT. Statements made per instruction, one lemma for each constructor of `Instr`.
-/

namespace Sys2Proof.Laws.EncodeLegal

/-- The token of the instruction is legal on its link (30_encoding.md R64). -/
def Statement (i : Instr) : Prop := (encode i).legal = true

theorem inData (b : Byte) : Statement (.inData b) := by
  unfold Statement; revert b; decide

theorem inEnd : Statement .inEnd := by unfold Statement; decide

theorem inAbort : Statement .inAbort := by unfold Statement; decide

theorem pkData (b : Byte) : Statement (.pkData b) := by
  unfold Statement; revert b; decide

theorem pkEnd : Statement .pkEnd := by unfold Statement; decide

theorem mpData (k : Code) : Statement (.mpData k) := by
  unfold Statement; revert k; decide

theorem mpEnd : Statement .mpEnd := by unfold Statement; decide

end Sys2Proof.Laws.EncodeLegal
end

