-- ==== Sys2Proof/Laws/Step.lean ====
section
/-!
SUPPORT. Everything one step can do, said once: if the step answers a next state, it is one of twelve
effects, each with the guard under which the block takes it (40_encoder.md R80).
-/

namespace Sys2Proof.Machine

/-- The effects of a step, with their guards. -/
inductive StepEffect (s : State) : State → Prop where
  | reset (host : s.host.head? = some .reset) : StepEffect s s.popHost.rst
  | inData (b : Byte) (ts : List Tok8) (host : s.host.head? = some .offer)
      (offered : s.inPort = dataTok8 b :: ts) (ready : s.inReady (dataTok8 b) = true) :
      StepEffect s (s.popHost.popIn.appendPayload b)
  | inEnd (ts : List Tok8) (host : s.host.head? = some .offer)
      (offered : s.inPort = endTok8 :: ts) (ready : s.inReady endTok8 = true) :
      StepEffect s (s.popHost.popIn.compress.enterPhase .drain)
  | inAbort (ts : List Tok8) (host : s.host.head? = some .offer)
      (offered : s.inPort = abortTok8 :: ts) (ready : s.inReady abortTok8 = true) :
      StepEffect s (s.popHost.popIn.clearPayload.enterPhase .idle)
  | inFault (t : Tok8) (ts : List Tok8) (r : Reject) (host : s.host.head? = some .offer)
      (offered : s.inPort = t :: ts) (ready : s.inReady t = true) (illegal : decodeIn t = .error r) :
      StepEffect s (s.popHost.popIn.raiseFault (rejectCause r) t)
  | pkData (b : Byte) (ts : List Tok8) (host : s.host.head? ≠ some .reset)
      (pending : s.dfOutq = dataTok8 b :: ts) (ready : s.dfEmitReady = true) :
      StepEffect s (s.popHost.popDfOutq.packByte b)
  | pkEnd (ts : List Tok8) (host : s.host.head? ≠ some .reset)
      (pending : s.dfOutq = endTok8 :: ts) (ready : s.dfEmitReady = true) :
      StepEffect s s.popHost.popDfOutq.flushGroup
  | pkFault (t : Tok8) (ts : List Tok8) (host : s.host.head? ≠ some .reset)
      (pending : s.dfOutq = t :: ts) (ready : s.dfEmitReady = true)
      (illegal : kind8 t ≠ kindData ∧ t ≠ endTok8) :
      StepEffect s (s.popHost.popDfOutq.raiseFault .internalKind t)
  | mpData (k : Code) (ts : List Tok6) (host : s.host.head? = some .take)
      (pending : s.pkOutq = dataTok6 k :: ts) (ready : s.mapperReady = true) :
      StepEffect s (s.popHost.popPkOutq.emit (dataTok8 (alphaCode k)))
  | mpEnd (ts : List Tok6) (host : s.host.head? = some .take)
      (pending : s.pkOutq = endTok6 :: ts) (ready : s.mapperReady = true) :
      StepEffect s ((s.popHost.popPkOutq.emit endTok8).enterPhase .idle)
  | mpFault (t : Tok6) (ts : List Tok6) (host : s.host.head? = some .take)
      (pending : s.pkOutq = t :: ts) (ready : s.mapperReady = true)
      (illegal : kind6 t ≠ kindData ∧ t ≠ endTok6) :
      StepEffect s (s.popHost.popPkOutq.raiseFault .internalKind (t.setWidth 10))
  | wait (host : s.host.head? ≠ some .reset) (idle : s.dfOutq = [] ∨ s.dfEmitReady = false) :
      StepEffect s s.popHost

/-- Accepting a token on `IN` has one of the effects of its word's class (R67). -/
theorem acceptIn_effect {s u : State} {t : Tok8} {ts : List Tok8}
    (host : s.host.head? = some .offer) (offered : s.inPort = t :: ts)
    (ready : s.inReady t = true) (h : runToken (.onIn t) s.popHost.popIn = .next u) :
    StepEffect s u := by
  have ready' : s.popHost.popIn.inReady t = true := ready
  rcases decodeIn_cases t with ⟨hk, hd⟩ | ⟨rfl, hd⟩ | ⟨rfl, hd⟩ | ⟨-, -, hd⟩ | ⟨-, hd⟩
  · rw [runToken_ok (lt := .onIn t) hd] at h
    rw [← dataTok8_data8 hk] at offered ready ready'
    rcases execInData_cases h with ⟨-, rfl⟩ | ⟨hr, -⟩
    · exact .inData _ ts host offered ready
    · simp [ready'] at hr
  · rw [runToken_ok (lt := .onIn _) hd] at h
    rcases execInEnd_cases h with ⟨-, rfl⟩ | ⟨hr, -⟩
    · exact .inEnd ts host offered ready
    · simp [ready'] at hr
  · rw [runToken_ok (lt := .onIn _) hd] at h
    rcases execInAbort_cases h with ⟨-, rfl⟩ | ⟨hr, -⟩
    · exact .inAbort ts host offered ready
    · simp [ready'] at hr
  all_goals
    rw [runToken_error (lt := .onIn t) hd] at h
    cases h
    exact .inFault t ts _ host offered ready hd

/-- `DF.EMIT` performs `PK.DATA`, `PK.END` or the internal fault (R102). -/
theorem dfEmit_effect {s u : State} {t : Tok8} {ts : List Tok8}
    (host : s.host.head? ≠ some .reset) (pending : s.dfOutq = t :: ts)
    (ready : s.dfEmitReady = true) (h : runToken (.onDf2pk t) s.popHost.popDfOutq = .next u) :
    StepEffect s u := by
  have ready' : s.popHost.popDfOutq.packerReady = true := packerReady_of_dfEmitReady ready
  rcases decodeDf2pk_cases t with ⟨hk, hd⟩ | ⟨rfl, hd⟩ | ⟨hk, he, hd⟩
  · rw [runToken_ok (lt := .onDf2pk t) hd] at h
    rw [← dataTok8_data8 hk] at pending
    rcases execPkData_cases h with ⟨-, rfl⟩ | ⟨hr, -⟩
    · exact .pkData _ ts host pending ready
    · simp [ready'] at hr
  · rw [runToken_ok (lt := .onDf2pk _) hd] at h
    rcases execPkEnd_cases h with ⟨-, rfl⟩ | ⟨hr, -⟩
    · exact .pkEnd ts host pending ready
    · simp [ready'] at hr
  · rw [runToken_error (lt := .onDf2pk t) hd] at h
    cases h
    exact .pkFault t ts host pending ready ⟨hk, he⟩

/-- The `OUT` step performs `MP.DATA`, `MP.END` or the internal fault (R141). -/
theorem emitOut_effect {s u : State} {t : Tok6} {ts : List Tok6}
    (host : s.host.head? = some .take) (pending : s.pkOutq = t :: ts)
    (ready : s.mapperReady = true) (h : runToken (.onPk2mp t) s.popHost.popPkOutq = .next u) :
    StepEffect s u := by
  have ready' : s.popHost.popPkOutq.mapperReady = true := ready
  rcases decodePk2mp_cases t with ⟨hk, hd⟩ | ⟨rfl, hd⟩ | ⟨hk, he, hd⟩
  · rw [runToken_ok (lt := .onPk2mp t) hd] at h
    rw [← dataTok6_data6 hk] at pending
    rcases execMpData_cases h with ⟨-, rfl⟩ | ⟨hr, -⟩
    · exact .mpData _ ts host pending ready
    · simp [ready'] at hr
  · rw [runToken_ok (lt := .onPk2mp _) hd] at h
    rcases execMpEnd_cases h with ⟨-, rfl⟩ | ⟨hr, -⟩
    · exact .mpEnd ts host pending ready
    · simp [ready'] at hr
  · rw [runToken_error (lt := .onPk2mp t) hd] at h
    cases h
    exact .mpFault t ts host pending ready ⟨hk, he⟩

/-- Everything a step can do: if it answers a next state, that state is one of the effects. -/
theorem step_effect {s u : State} (h : step s = .next u) : StepEffect s u := by
  have guard := chosenStep_guard s
  unfold step at h
  generalize s.chosenStep = k at guard h
  cases guard with
  | reset host => cases h; exact .reset host
  | acceptIn t ts host offered ready => exact acceptIn_effect host offered ready h
  | dfEmit t ts host pending ready => exact dfEmit_effect host pending ready h
  | emitOut t ts host pending ready => exact emitOut_effect host pending ready h
  | wait host idle => cases h; exact .wait host idle

/-- A step uses up one action of the host. -/
theorem step_host {s u : State} (h : step s = .next u) : u.host = s.host.tail := by
  cases step_effect h with
  | pkData b =>
    rcases packByte_cases s.popHost.popDfOutq b with ⟨-, hb⟩ | ⟨-, hb⟩ | ⟨-, hb⟩ <;> rw [hb] <;> simp
  | _ => simp [State.flushGroup]

end Sys2Proof.Machine
end

