-- ==== Sys2Proof/Laws/Run.lean ====
section
/-!
SUPPORT. Runs of many steps, taken apart one step at a time.
-/

namespace Sys2Proof.Machine

@[simp] theorem run_zero (s : State) : run 0 s = .next s := rfl

/-- A run is a step and then a run. -/
theorem run_succ_of_step {s t : State} (h : step s = .next t) (n : Nat) : run (n + 1) s = run n t := by
  simp [run, h]

/-- A run of one step more, taken apart at its first step. -/
theorem step_of_run_succ {n : Nat} {s t : State} (h : run (n + 1) s = .next t) :
    ∃ u, step s = .next u ∧ run n u = .next t := by
  cases hs : step s with
  | next u => exact ⟨u, rfl, run_succ_of_step hs n ▸ h⟩
  | fault r => cases r
  | refused r => simp [run, hs] at h

/-- A run uses up one action of the host a step. -/
theorem run_host {n : Nat} {s t : State} (h : run n s = .next t) : t.host = s.host.drop n := by
  induction n generalizing s with
  | zero => cases h; rfl
  | succ n ih =>
    obtain ⟨u, hu, hr⟩ := step_of_run_succ h
    rw [ih hr, step_host hu, List.drop_tail]

/-- The runs of the model are the host's runs of the machine. -/
theorem run_eq_host_run (n : Nat) (s : State) : run n s = Host.Core.run core n s := by
  induction n generalizing s with
  | zero => rfl
  | succ n ih =>
    have host := Host.Core.run.eq_2 core s n
    cases h : step s with
    | next t =>
      rw [run_succ_of_step h, host, show core.step s = .next t from h]
      exact ih t
    | fault r => cases r
    | refused r => rw [host, show core.step s = .refused r from h]; simp only [run, h]; rfl

end Sys2Proof.Machine
end

