-- ==== Sys2Proof/Machine/Assembler.lean ====
section
/-!
DEFINITION. The token programs of the spec: the lines of 30_encoding.md R71 and the words they stand
for. The spec's own notation for a host's tokens; no step of the machine uses it.
-/

namespace Sys2Proof.Machine

/-- A line of a token program (R71), the primitive lines first. -/
inductive AsmLine where
  /-- `DATA 0xhh` -/
  | data (b : Byte)
  /-- `END` -/
  | endMessage
  /-- `ABORT` -/
  | abort
  /-- `RAW 0xhhh`: any word on `IN` -/
  | raw (t : Tok8)
  /-- `RESET`: assert the reset signal; no token -/
  | reset
  /-- `PK.DATA 0xhh` -/
  | pkData (b : Byte)
  /-- `PK.END` -/
  | pkEnd
  /-- `MP.DATA n` -/
  | mpData (k : Code)
  /-- `MP.END` -/
  | mpEnd
  /-- `HEX hh hh ...` -/
  | hex (bs : List Byte)
  /-- `BYTES "text"` -/
  | bytes (text : List Char)
  /-- `MSG "text"` -/
  | msg (text : List Char)
  /-- `MSGHEX hh hh ...` -/
  | msgHex (bs : List Byte)
  /-- `EMPTY` -/
  | empty
deriving DecidableEq, Repr

/-- The byte a character of a text literal stands for: its ASCII code (R71). -/
def asciiByte (c : Char) : Byte := BitVec.ofNat 8 c.toNat

/-- The primitive lines a line expands to (R71, the pseudo-instructions). -/
def AsmLine.expand : AsmLine → List AsmLine
  | .hex bs => bs.map .data
  | .bytes text => text.map fun c => .data (asciiByte c)
  | .msg text => (text.map fun c => .data (asciiByte c)) ++ [.endMessage]
  | .msgHex bs => bs.map .data ++ [.endMessage]
  | .empty => [.endMessage]
  | line => [line]

/-- The token of a primitive line (R71, the encoding column); `RESET` and a line still to be expanded
have none. -/
def AsmLine.token : AsmLine → Option LinkToken
  | .data b => some (encode (.inData b))
  | .endMessage => some (encode .inEnd)
  | .abort => some (encode .inAbort)
  | .raw t => some (.onIn t)
  | .pkData b => some (encode (.pkData b))
  | .pkEnd => some (encode .pkEnd)
  | .mpData k => some (encode (.mpData k))
  | .mpEnd => some (encode .mpEnd)
  | .reset | .hex _ | .bytes _ | .msg _ | .msgHex _ | .empty => none

/-- The tokens of a program, in order. -/
def assemble (program : List AsmLine) : List LinkToken :=
  (program.flatMap AsmLine.expand).filterMap AsmLine.token

end Sys2Proof.Machine
end

