-- ==== Sys2Proof/Tests/Slice0.lean ====
section
/-!
SUPPORT. The model's own tests. Expected values come from spec/: the encoding column of 30_encoding.md
R66, the test vectors of 95_test_vectors.md (named V, E or P as there), the tables of 41_deflate.md R103
and 60_exceptions.md R160. The last part shows, for each statement with hypotheses, a state that meets
them.
-/

open Sys2Proof Sys2Proof.Machine

namespace Sys2Proof.Tests

/-! ## Helper states -/

/-- RECV with a payload (V1.2). -/
def receiving (p : List Byte) : State := { State.reset with phase := .recv, dfBuf := p }

/-- DRAIN with tokens still to pack and nothing to emit (P6). -/
def packing (q : List Tok8) : State := { State.reset with phase := .drain, dfOutq := q }

/-- DRAIN with tokens to emit. -/
def emitting (q : List Tok6) : State := { State.reset with phase := .drain, pkOutq := q }

/-- The faulted state of V5.1. -/
def faulted : State :=
  { State.reset with fault := true, faultCause := .reservedKind, faultToken := 0x300#10 }

/-- The host offers these tokens, the first of them in this step. -/
def offering (s : State) (q : List Tok8) : State := { s with inPort := q, host := [.offer] }

/-- The host takes in this step. -/
def taking (s : State) : State := { s with host := [.take] }

/-! ## WellFormed refuses ill-formed words -/

theorem test_illegal_on_in :
    legalOnIn 0x300#10 = false ∧ legalOnIn 0x101#10 = false ∧ legalOnIn 0x2FF#10 = false := by
  decide

theorem test_illegal_on_df2pk :
    legalOnDf2pk 0x200#10 = false ∧ legalOnDf2pk 0x101#10 = false ∧ legalOnDf2pk 0x300#10 = false := by
  decide

theorem test_illegal_on_pk2mp :
    legalOnPk2mp 0x41#8 = false ∧ legalOnPk2mp 0x80#8 = false ∧ legalOnPk2mp 0xC0#8 = false := by
  decide

/-- A space and the base64 character `+` are no characters of the alphabet (R145). -/
theorem test_illegal_on_out :
    legalOnOut 0x020#10 = false ∧ legalOnOut 0x02B#10 = false ∧ legalOnOut 0x101#10 = false ∧
    legalOnOut 0x06D#10 = true ∧ legalOnOut 0x100#10 = true := by
  decide

/-! ## Decoding, words written out from R66 -/

theorem test_decode_in_data : decode (.onIn 0b0010100101#10) = .ok (.inData 0xA5#8) := by decide

theorem test_decode_in_end : decode (.onIn 0b0100000000#10) = .ok .inEnd := by decide

theorem test_decode_in_abort : decode (.onIn 0b1000000000#10) = .ok .inAbort := by decide

theorem test_decode_pk_data : decode (.onDf2pk 0b0011011110#10) = .ok (.pkData 0xDE#8) := by decide

theorem test_decode_pk_end : decode (.onDf2pk 0b0100000000#10) = .ok .pkEnd := by decide

theorem test_decode_mp_data : decode (.onPk2mp 0b00110101#8) = .ok (.mpData 53#6) := by decide

theorem test_decode_mp_end : decode (.onPk2mp 0b01000000#8) = .ok .mpEnd := by decide

/-- R67's illegal classes, at their boundaries. -/
theorem test_decode_illegal_in :
    decode (.onIn 0x101#10) = .error .ctrlDataNonzero ∧
    decode (.onIn 0x1FF#10) = .error .ctrlDataNonzero ∧
    decode (.onIn 0x201#10) = .error .ctrlDataNonzero ∧
    decode (.onIn 0x300#10) = .error .reservedKind ∧
    decode (.onIn 0x3FF#10) = .error .reservedKind := by
  decide

/-- ABORT is legal on `IN` only (R63, R69). -/
theorem test_decode_illegal_internal :
    decode (.onDf2pk 0x200#10) = .error .internalKind ∧
    decode (.onPk2mp 0x41#8) = .error .internalKind ∧
    decode (.onPk2mp 0x80#8) = .error .internalKind := by
  decide

/-- Words in the opcode table's numbering (log 8). -/
theorem test_table_words :
    decodeTableWord 16 0x041 = some (.inData 0x41#8) ∧ decodeTableWord 16 0x200 = some .inAbort ∧
    decodeTableWord 8 0x30 = some (.mpData 48#6) ∧ decodeTableWord 8 0x40 = some .mpEnd ∧
    decodeTableWord 16 0x300 = none ∧ decodeTableWord 16 0x400 = none := by
  decide

/-! ## One step each -/

/-- V1.1: the example of R81, with STATUS after it. -/
theorem test_in_data_from_reset :
    step (offering State.reset [0x041#10]) = .next (receiving [0x41#8]) ∧
    (receiving [0x41#8]).status = 0x0001#16 := by
  and_intros <;> rfl

/-- V1.2: a zero byte is data. -/
theorem test_in_data_zero_byte :
    exec (.inData 0x00#8) (receiving [0x41#8]) = .next (receiving [0x41#8, 0x00#8]) := by
  rfl

/-- V1.3: END fills `DF_OUTQ` with the compressed payload. -/
theorem test_in_end_fills_queue :
    exec .inEnd (receiving [0x41#8]) =
      .next (packing (compressedTokens (Config.deflateFn [0x41#8]))) := by
  rfl

/-- V1.3 and R101: the words for the reference compressor's bytes. -/
theorem test_compressed_words :
    compressedTokens [0x73#8, 0x04#8, 0x00#8] = [0x073#10, 0x004#10, 0x000#10, 0x100#10] := by
  decide

/-- V1.5 and V1.6. -/
theorem test_in_abort :
    exec .inAbort (receiving [0x41#8]) = .next State.reset ∧
    exec .inAbort State.reset = .next State.reset := by
  and_intros <;> rfl

/-- V1.7: no word is accepted in DRAIN, illegal ones included. -/
theorem test_not_ready_in_drain :
    (packing [0x003#10, 0x000#10, 0x100#10]).inReady 0x041#10 = false ∧
    (packing [0x003#10, 0x000#10, 0x100#10]).inReady 0x100#10 = false ∧
    (packing [0x003#10, 0x000#10, 0x100#10]).inReady 0x300#10 = false := by
  decide

/-- V1.8 to V1.10: a full buffer refuses DATA only. -/
theorem test_full_buffer :
    let full := { receiving [0x01#8, 0x02#8] with maxPayload := some 2 }
    step (offering full [0x003#10]) = .next { full with inPort := [0x003#10] } ∧
    full.inReady 0x100#10 = true ∧ full.inReady 0x200#10 = true := by
  and_intros <;> rfl

/-- The example of R102: the first byte of a group. -/
theorem test_pk_data_first :
    step (packing [0x003#10, 0x000#10, 0x100#10]) =
      .next { packing [0x000#10, 0x100#10] with pkCnt := 1, pkB1 := 0x03#8 } := by
  rfl

/-- The example of R122: the third byte emits the group `FF 00 FF` (E1). -/
theorem test_pk_data_third :
    exec (.pkData 0xFF#8) { packing [] with pkCnt := 2, pkB1 := 0xFF#8, pkB2 := 0x00#8 } =
      .next (emitting [0x3F#8, 0x30#8, 0x03#8, 0x3F#8]) := by
  rfl

/-- The example of R123: one byte held (E2). -/
theorem test_pk_end_one_byte :
    exec .pkEnd { packing [] with pkCnt := 1, pkB1 := 0xFF#8 } =
      .next (emitting [0x3F#8, 0x30#8, 0x00#8, 0x00#8, 0x40#8]) := by
  rfl

/-- V3.4 and V3.9: no byte held, and two bytes held. -/
theorem test_pk_end_other_counts :
    exec .pkEnd (packing []) = .next (emitting [0x40#8]) ∧
    exec .pkEnd { packing [] with pkCnt := 2, pkB1 := 0x03#8, pkB2 := 0x00#8 } =
      .next (emitting [0x00#8, 0x30#8, 0x00#8, 0x00#8, 0x40#8]) := by
  and_intros <;> rfl

/-- The example of R141: code 48 is `m`. -/
theorem test_mp_data :
    step (taking (emitting [0x30#8, 0x03#8, 0x3F#8])) =
      .next { emitting [0x03#8, 0x3F#8] with out := [0x06D#10] } := by
  rfl

/-- The example of R142. -/
theorem test_mp_end :
    step (taking (emitting [0x40#8])) = .next { State.reset with out := [0x100#10] } := by
  rfl

/-- V4.11: an illegal word on `PK2MP`. -/
theorem test_mp_fault :
    step (taking (emitting [0x41#8])) =
      .next { emitting [] with
        fault := true, faultCause := .internalKind, faultToken := 0x041#10 } := by
  rfl

/-- V5.3 and V5.4: PHASE and `DF_BUF` are kept, and STATUS. -/
theorem test_in_faults :
    let s1 := (receiving [0x41#8]).raiseFault .reservedKind 0x3A5#10
    let s2 := (receiving [0x41#8]).raiseFault .ctrlDataNonzero 0x101#10
    step (offering (receiving [0x41#8]) [0x3A5#10]) = .next s1 ∧ s1.status = 0xE94D#16 ∧
    step (offering (receiving [0x41#8]) [0x101#10]) = .next s2 ∧ s2.status = 0x4055#16 := by
  and_intros <;> rfl

/-- V5.9: a faulted block accepts nothing; V5.10 and V6.1: reset clears it. -/
theorem test_faulted_block :
    step (offering faulted [0x041#10]) = .next { faulted with inPort := [0x041#10] } ∧
    faulted.status = 0xC00C#16 ∧
    step { faulted with host := [.reset] } = .next State.reset := by
  and_intros <;> rfl

/-- V6.3: reset in DRAIN keeps what was emitted. -/
theorem test_reset_in_drain :
    step { emitting [0x12#8, 0x30#8] with out := [0x053#10], host := [.reset] } =
      .next { State.reset with out := [0x053#10] } := by
  rfl

/-- Words placed by `withFetchWord` run as the first instruction after reset. -/
theorem test_fetch_word :
    step (State.reset.withFetchWord 16 0x041) = exec (.inData 0x41#8) State.reset ∧
    step (State.reset.withFetchWord 16 0x200) = exec .inAbort State.reset ∧
    step (State.reset.withFetchWord 8 0x30) = exec (.mpData 48#6) State.reset ∧
    step (State.reset.withFetchWord 8 0x40) = exec .mpEnd State.reset := by
  and_intros <;> rfl

/-- The END word placed by `withFetchWord`. -/
theorem test_fetch_end : step (State.reset.withFetchWord 16 0x100) = exec .inEnd State.reset := by
  rfl

/-! ## The functions of the contract -/

/-- V3.7, V3.8, V3.11 and V3.12. -/
theorem test_pack :
    pack [0x12, 0x34, 0x56] = [0x04, 0x23, 0x11, 0x16] ∧
    pack [0xDE, 0xAD, 0xBE, 0xEF] = [0x37, 0x2A, 0x36, 0x3E, 0x3B, 0x30, 0x00, 0x00] ∧
    pack [0x04, 0x10, 0x41] = [0x01, 0x01, 0x01, 0x01] ∧
    pack [0x00, 0x0F] = [0x00, 0x00, 0x3C, 0x00] := by
  decide

/-- R103: the reference compressor on the reference vectors, looked up one by one. -/
theorem test_reference_compressor :
    ∀ v ∈ Config.referenceVectors, Config.deflateRef v.1 = v.2 := by
  decide

/-- V2.1 to V2.9: the strings of the reference vectors. -/
theorem test_reference_strings :
    Config.referenceVectors.map (fun v => mapSeq (pack v.2)) =
      ["0m00".toList, "-my0".toList, "Om00".toList, "SmG0".toList, "Iqo40G00".toList,
        "Os1aOcPXPMC70000".toList, "SoWkIImgAStDuN98pKi1qW00".toList,
        "SoWkIImgAStDuNBAJrBGjLDmpCbCJbMmKiX8pSd9vt98pKi1IW80".toList, "-y_m7m00".toList] := by
  decide

/-- V4.1 to V4.8. -/
theorem test_alphabet_boundaries :
    [0, 9, 10, 35, 36, 61, 62, 63].map (fun k : Code => alphaCode k) =
      [0x30, 0x39, 0x41, 0x5A, 0x61, 0x7A, 0x2D, 0x5F] := by
  decide

/-- The framing check of 95_test_vectors.md section 2.2 (R104). -/
theorem test_unframed :
    unframed [0x78, 0xDA, 0x03, 0x00, 0x00, 0x00, 0x00, 0x01] = [0x03, 0x00] := by
  decide

/-- The words of P5, with its reset line, and of P7's text (R71). -/
theorem test_assemble :
    assemble [.data 0x41#8, .raw 0x1FF#10, .endMessage, .reset, .empty] =
      [.onIn 0x041#10, .onIn 0x1FF#10, .onIn 0x100#10, .onIn 0x100#10] ∧
    assemble [.msg ['@', 's', '\n', 'l']] =
      [.onIn 0x040#10, .onIn 0x073#10, .onIn 0x00A#10, .onIn 0x06C#10, .onIn 0x100#10] := by
  decide

/-! ## The hypotheses of the statements are met -/

/-- IDLE in front of a host that offers a message of one byte. -/
def idleWithMessage : State :=
  State.powerOn none [0x041#10, 0x100#10] [.offer, .offer, .reset]

/-- The state after that message's END was accepted. -/
def messageAccepted : State :=
  { packing (compressedTokens (Config.deflateFn [0x41#8])) with host := [.reset] }

/-- StepRunsDecodedToken, clause by clause. -/
theorem test_meets_step_runs_in :
    (offering State.reset [0x100#10]).host = .offer :: [] ∧
    (offering State.reset [0x100#10]).inPort = 0x100#10 :: [] ∧
    (offering State.reset [0x100#10]).inReady 0x100#10 = true ∧
    decode (.onIn 0x100#10) = .ok .inEnd := by
  decide

theorem test_meets_step_runs_df2pk :
    (taking (packing [0x003#10])).fault = false ∧ (taking (packing [0x003#10])).phase = .drain ∧
    (taking (packing [0x003#10])).pkOutq = [] ∧
    (taking (packing [0x003#10])).dfOutq = 0x003#10 :: [] ∧
    (taking (packing [0x003#10])).host.head? ≠ some .reset ∧
    decode (.onDf2pk 0x003#10) = .ok (.pkData 0x03#8) := by
  decide

theorem test_meets_step_runs_pk2mp :
    (taking (emitting [0x40#8])).host = .take :: [] ∧ (taking (emitting [0x40#8])).fault = false ∧
    (taking (emitting [0x40#8])).pkOutq = 0x40#8 :: [] ∧ decode (.onPk2mp 0x40#8) = .ok .mpEnd := by
  decide

/-- InReadyFormula and the first clause of NoInputUntilMessageEnd: a token that is not ready. -/
theorem test_meets_not_ready :
    (offering faulted [0x041#10]).inPort = 0x041#10 :: [] ∧
    (offering faulted [0x041#10]).inReady 0x041#10 = false ∧
    step (offering faulted [0x041#10]) = .next { faulted with inPort := [0x041#10] } := by
  and_intros <;> rfl

/-- InDataAppendsByte: just below a full buffer, and full. -/
theorem test_meets_in_data :
    let s := { receiving [0x01#8] with maxPayload := some 2, inPort := [0x0FF#10], host := [.offer] }
    s.fault = false ∧ s.phase ≠ .drain ∧ s.maxPayload ≠ some s.dfBuf.length ∧
    s.host = .offer :: [] ∧ s.inPort = (0x000#10 ||| (0xFF#8).setWidth 10) :: [] := by
  decide

theorem test_meets_in_data_waits :
    let s := { receiving [0x01#8, 0x02#8] with maxPayload := some 2, inPort := [0x0FF#10] }
    s.maxPayload = some s.dfBuf.length ∧ s.inPort = (0x000#10 ||| (0xFF#8).setWidth 10) :: [] ∧
    step s = .next s ∧ (offering faulted [0x0FF#10]).fault = true ∧
    step (offering (packing []) [0x0FF#10]) = .next { packing [] with inPort := [0x0FF#10] } := by
  and_intros <;> rfl

/-- The clauses of InEndCompressesPayload and InAbortDiscardsPayload about DRAIN. -/
theorem test_meets_in_end_waits :
    (packing []).phase = .drain ∧
    step (offering (packing []) [0x100#10]) = .next { packing [] with inPort := [0x100#10] } ∧
    step (offering (packing []) [0x200#10]) = .next { packing [] with inPort := [0x200#10] } := by
  and_intros <;> rfl

/-- InEndCompressesPayload and InAbortDiscardsPayload, with an empty and a full payload buffer. -/
theorem test_meets_in_end_and_abort :
    let s := offering { receiving [0x01#8] with maxPayload := some 1 } [0x100#10]
    State.reset.fault = false ∧ State.reset.phase ≠ .drain ∧ s.fault = false ∧ s.phase ≠ .drain ∧
    s.host = .offer :: [] ∧ s.inPort = 0x100#10 :: [] ∧
    (offering s [0x200#10]).inPort = 0x200#10 :: [] := by
  decide

/-- NoInputUntilMessageEnd, the clauses about DRAIN: one step that stays and one that leaves. -/
theorem test_meets_drain_steps :
    (packing [0x003#10]).phase = .drain ∧ (packing [0x003#10]).host.head? ≠ some .reset ∧
    step (packing [0x003#10]) = .next { packing [] with pkCnt := 1, pkB1 := 0x03#8 } ∧
    (taking (emitting [0x40#8])).phase = .drain ∧
    (taking (emitting [0x40#8])).host.head? ≠ some .reset ∧
    step (taking (emitting [0x40#8])) = .next { State.reset with out := [0x100#10] } := by
  and_intros <;> first | rfl | decide

/-- IllegalInWordRaisesFault: the three kinds. -/
theorem test_meets_illegal_in :
    let s := offering State.reset
    (s [0x300#10]).host = .offer :: [] ∧ (s [0x300#10]).inPort = 0x300#10 :: [] ∧
    (s [0x300#10]).inReady 0x300#10 = true ∧ kind8 0x300#10 = 0b11#2 ∧
    (s [0x101#10]).inReady 0x101#10 = true ∧ kind8 0x101#10 = 0b01#2 ∧ data8 0x101#10 ≠ 0x00#8 ∧
    (s [0x2FF#10]).inReady 0x2FF#10 = true ∧ kind8 0x2FF#10 = 0b10#2 ∧ data8 0x2FF#10 ≠ 0x00#8 := by
  decide

/-- IllegalInternalTokenRaisesFault, at the boundaries of the illegal words. -/
theorem test_meets_illegal_df2pk :
    (packing [0x101#10]).fault = false ∧ (packing [0x101#10]).phase = .drain ∧
    (packing [0x101#10]).pkOutq = [] ∧ (packing [0x101#10]).dfOutq = 0x101#10 :: [] ∧
    (packing [0x101#10]).host.head? ≠ some .reset ∧ 0x0FF < (0x101#10).toNat ∧
    0x101#10 ≠ 0x100#10 := by
  decide

theorem test_meets_illegal_pk2mp :
    (taking (emitting [0x41#8])).host = .take :: [] ∧ (taking (emitting [0x41#8])).fault = false ∧
    (taking (emitting [0x41#8])).pkOutq = 0x41#8 :: [] ∧ 0x3F < (0x41#8).toNat ∧
    0x41#8 ≠ 0x40#8 := by
  decide

/-- FaultingStepIsPrecise: a fault from each of the three links. -/
theorem test_meets_faulting_step :
    step (offering State.reset [0x300#10]) = .next faulted ∧
    step (packing [0x200#10]) = .next ((packing []).raiseFault .internalKind 0x200#10) ∧
    step (taking (emitting [0x80#8])) = .next ((emitting []).raiseFault .internalKind 0x080#10) ∧
    State.reset.fault = false ∧ faulted.fault = true := by
  and_intros <;> rfl

/-- FaultedBlockOnlyResets, with and without reset. -/
theorem test_meets_faulted :
    faulted.fault = true ∧ faulted.host.head? ≠ some .reset ∧
    ({ faulted with host := [.reset] } : State).host.head? = some .reset := by
  decide

/-- FirstFaultIsKept: a faulted run of two steps before a reset. -/
theorem test_meets_first_fault :
    let s := { faulted with inPort := [0x3FF#10], host := [.offer, .take, .reset] }
    s.fault = true ∧ noReset 2 s ∧ run 2 s = .next { s with host := [.reset] } := by
  unfold noReset
  and_intros <;> first | rfl | decide

/-- LegalTokensNeverFault, CapacityIsFixed and OutKeepsEveryToken: a step that answers next. -/
theorem test_meets_next_states :
    exec (.inData 0x41#8) State.reset = .next (receiving [0x41#8]) ∧
    step State.reset = .next State.reset ∧ State.reset.host.head? ≠ some .reset := by
  and_intros <;> first | rfl | decide

/-- ResetStepRestoresState, ResetValues and PowerOnAcceptsInput: reset asserted on a faulted block. -/
theorem test_meets_reset :
    ({ faulted with host := [.reset] } : State).host = .reset :: [] ∧
    step { faulted with host := [.reset] } = .next State.reset := by
  and_intros <;> rfl

/-- PkDataFillsGroup and PkEndFlushesGroup, at every count. -/
theorem test_meets_packer_ready :
    (packing []).fault = false ∧ (packing []).pkOutq = [] ∧
    (packing []).pkCnt = 0 ∧ ({ packing [] with pkCnt := 1 } : State).pkCnt = 1 ∧
    ({ packing [] with pkCnt := 2 } : State).pkCnt = 2 := by
  decide

/-- TokensWaitWhereNotReady, clause by clause. -/
theorem test_meets_waits :
    (packing []).inReady (0b00#2 ++ 0x41#8) = false ∧ (packing []).inReady 0x100#10 = false ∧
    (packing []).inReady 0x200#10 = false ∧
    (emitting [0x00#8]).pkOutq ≠ [] ∧ faulted.fault = true := by
  decide

/-- DfEmitHandsTokenToPacker: a step of each kind, and each way its `requires` fails. -/
theorem test_meets_df_emit :
    (packing [0x0FF#10]).fault = false ∧ (packing [0x0FF#10]).phase = .drain ∧
    (packing [0x0FF#10]).dfOutq = 0x0FF#10 :: [] ∧ (packing [0x100#10]).dfOutq = 0x100#10 :: [] ∧
    (packing [0x101#10]).dfOutq = 0x101#10 :: [] ∧ (packing [0x0FF#10]).pkOutq = [] ∧
    (packing [0x0FF#10]).host.head? ≠ some .reset := by
  decide

theorem test_meets_df_emit_waits :
    let blocked := { emitting [0x00#8] with dfOutq := [0x0FF#10] }
    let stopped := { packing [0x0FF#10] with fault := true }
    blocked.phase = .drain ∧ blocked.pkOutq ≠ [] ∧ blocked.host.head? ≠ some .reset ∧
    step blocked = .next blocked ∧ (packing []).dfOutq = [] ∧ step (packing []) = .next (packing []) ∧
    stopped.fault = true ∧ step stopped = .next stopped := by
  and_intros <;> first | rfl | decide

/-- UnheldBytesAreZeroAndUnread: the states of its clauses, and a next state. -/
theorem test_meets_unheld :
    (packing []).fault = false ∧ (packing []).pkOutq = [] ∧
    (packing []).pkCnt = 0 ∧ ({ packing [] with pkCnt := 1, pkB1 := 0xFF#8 } : State).pkCnt = 1 ∧
    exec (.pkData 0xDE#8) (packing []) = .next { packing [] with pkCnt := 1, pkB1 := 0xDE#8 } := by
  and_intros <;> rfl

/-- PackerComputesPack, on the trace of V3.8 from the reset state. -/
theorem test_meets_packer_stream :
    State.reset.fault = false ∧ State.reset.pkCnt = 0 ∧ State.reset.pkOutq = [] ∧
    drivePacker ([0xDE#8, 0xAD#8, 0xBE#8, 0xEF#8].map .pkData ++ [.pkEnd]) State.reset =
      some ([0x37, 0x2A, 0x36, 0x3E, 0x3B, 0x30, 0x00, 0x00, 0x40], State.reset) := by
  decide

/-- MpDataEmitsCharacter: a word of each class; MpEndClosesMessage: its word. -/
theorem test_meets_out_step :
    (taking (emitting [0x3F#8])).host = .take :: [] ∧ (taking (emitting [0x3F#8])).fault = false ∧
    (taking (emitting [0x3F#8])).pkOutq = 0x3F#8 :: [] ∧
    (taking (emitting [0x40#8])).pkOutq = 0x40#8 :: [] ∧
    (taking (emitting [0x41#8])).pkOutq = 0x41#8 :: [] := by
  decide

/-- OutKeepsEveryToken and OwedOutputIsConserved: an `OUT` step of the invariant, and what is owed. -/
theorem test_meets_out_keeps :
    let s := taking (emitting [0x30#8, 0x40#8])
    s.Inv ∧ s.host.head? ≠ some .reset ∧ s.pendingOut = [0x06D#10, 0x100#10] ∧
    step s = .next { emitting [0x40#8] with out := [0x06D#10] } := by
  and_intros <;> first | rfl | decide

/-- The same: `DF.EMIT` with the third byte of a group, and with END behind one held byte. -/
theorem test_meets_df_emit_keeps :
    let s := { packing [0x0FF#10, 0x100#10] with pkCnt := 2, pkB1 := 0xFF#8, pkB2 := 0x00#8 }
    let e := { packing [0x100#10] with pkCnt := 1, pkB1 := 0xFF#8 }
    s.Inv ∧ s.heldBytes = [0xFF#8, 0x00#8] ∧
    s.pendingOut = [0x05F#10, 0x06D#10, 0x033#10, 0x05F#10, 0x100#10] ∧
    step s = .next { emitting [0x3F#8, 0x30#8, 0x03#8, 0x3F#8] with dfOutq := [0x100#10] } ∧
    e.Inv ∧ e.pendingOut = [0x05F#10, 0x06D#10, 0x030#10, 0x030#10, 0x100#10] ∧
    step e = .next (emitting [0x3F#8, 0x30#8, 0x00#8, 0x00#8, 0x40#8]) := by
  and_intros <;> first | rfl | decide

/-- The same: a fault raised on `IN`. The step of `IN.END` is test_meets_store_and_forward_end's. -/
theorem test_meets_fault_keeps :
    let s := offering (receiving [0x41#8]) [0x300#10]
    s.Inv ∧ s.pendingOut = [] ∧ s.host.head? ≠ some .reset ∧
    step s = .next ((receiving [0x41#8]).raiseFault .reservedKind 0x300#10) := by
  and_intros <;> first | rfl | decide

/-- StepKeepsInvariant: a DRAIN state of the invariant with a partial group, and its step. -/
theorem test_meets_invariant :
    ({ packing [0x0AD#10, 0x100#10] with pkCnt := 1, pkB1 := 0xDE#8 } : State).Inv ∧
    step { packing [0x0AD#10, 0x100#10] with pkCnt := 1, pkB1 := 0xDE#8 } =
      .next { packing [0x100#10] with pkCnt := 2, pkB1 := 0xDE#8, pkB2 := 0xAD#8 } := by
  and_intros <;> first | rfl | decide

/-- ReachableStatesMeetR33: an IDLE state is reached. -/
theorem test_meets_reachable_idle : State.reset.Reachable ∧ State.reset.fault = false :=
  ⟨⟨none, [], [], 0, rfl⟩, rfl⟩

/-- A RECV state is reached, with a full buffer. -/
theorem test_meets_reachable_recv :
    State.Reachable { receiving [0x41#8] with maxPayload := some 1 } :=
  ⟨some 1, [0x041#10], [.offer], 1, rfl⟩

/-- A DRAIN state is reached. -/
theorem test_meets_reachable_drain :
    (packing (compressedTokens (Config.deflateFn []))).Reachable :=
  ⟨none, [0x100#10], [.offer], 1, rfl⟩

/-- ReachableFaultsAndBounds: both causes a host can raise are reached. -/
theorem test_meets_reachable_faults :
    faulted.Reachable ∧ (State.reset.raiseFault .ctrlDataNonzero 0x201#10).Reachable :=
  ⟨⟨none, [0x300#10], [.offer], 1, rfl⟩, ⟨none, [0x201#10], [.offer], 1, rfl⟩⟩

/-- StoreAndForward: a step in RECV that stays, and the step that accepts END. -/
theorem test_meets_store_and_forward :
    (offering (receiving [0x41#8]) [0x042#10]).Inv ∧
    (offering (receiving [0x41#8]) [0x042#10]).phase ≠ .drain ∧
    step (offering (receiving [0x41#8]) [0x042#10]) = .next (receiving [0x41#8, 0x42#8]) := by
  and_intros <;> first | rfl | decide

theorem test_meets_store_and_forward_end :
    step (offering (receiving [0x41#8]) [0x100#10]) =
      .next (packing (compressedTokens (Config.deflateFn [0x41#8]))) := by
  rfl

/-- MessageOutputOnEverySchedule and MessageOutputIndependent: a message accepted from IDLE. -/
theorem test_meets_message :
    idleWithMessage.Inv ∧ idleWithMessage.fault = false ∧ idleWithMessage.phase = .idle ∧
    idleWithMessage.inPort = [0x41#8].map dataTok8 ++ endTok8 :: [] ∧ noReset 2 idleWithMessage :=
  ⟨by decide, rfl, rfl, rfl, by unfold noReset; decide⟩

theorem test_meets_message_run :
    run 2 idleWithMessage = .next messageAccepted ∧ messageAccepted.out = idleWithMessage.out ++ [] ∧
    endTok8 ∉ ([] : List Tok8).dropLast :=
  ⟨rfl, rfl, by simp⟩

/-- The second clause of MessageOutputOnEverySchedule: the step that emits END. -/
theorem test_meets_message_end :
    (taking (emitting [0x40#8])).Inv ∧ (taking (emitting [0x40#8])).phase = .drain ∧
    step (taking (emitting [0x40#8])) = .next { State.reset with out := [] ++ [endTok8] } := by
  and_intros <;> first | rfl | decide

/-- EveryPayloadIsEncoded: a payload that just fits, and a host that takes often enough. -/
theorem test_meets_every_payload :
    let n := (Config.deflateFn [0x41#8]).length
    let s := State.powerOn (some 1) [0x041#10, 0x100#10]
      (List.replicate 2 .offer ++ List.replicate ((n + 1) + (4 * ceilDiv3 n + 1)) .take ++ [])
    s.Inv ∧ s.fault = false ∧ s.phase = .idle ∧ (∀ m, s.maxPayload = some m → [0x41#8].length ≤ m) ∧
    s.inPort = [0x41#8].map dataTok8 ++ endTok8 :: [] :=
  ⟨by decide, rfl, rfl, fun m hm => by cases hm; decide, by decide⟩

/-- The state after the END of an empty message was accepted, in front of a host that then does
`actions`. -/
def draining (actions : List HostAction) : State :=
  { packing (compressedTokens (Config.deflateFn [])) with host := actions }

/-- ProgressInExactSteps, the host of its first clause: it holds, and offers the next message in
DRAIN. -/
theorem test_meets_progress_counts :
    let s := State.powerOn none [0x100#10, 0x100#10] [.offer, .hold, .offer]
    let u := { draining [.hold, .offer] with inPort := [0x100#10] }
    s.Inv ∧ s.fault = false ∧ s.phase ≠ .drain ∧ s.inPort = endTok8 :: [0x100#10] ∧
    s.host = .offer :: [.hold, .offer] ∧ step s = .next u ∧ noReset 1 u ∧
    (∀ j v, j < 1 → run j u = .next v → v.phase = .drain) ∧ ∃ t, run 1 u = .next t := by
  refine ⟨by decide, rfl, by decide, rfl, rfl, rfl, by unfold noReset; decide, ?_, ?_⟩
  · intro j v hj hv
    obtain rfl : j = 0 := by omega
    cases hv
    rfl
  · simp only [draining]
    cases Config.deflateFn [] with
    | nil => exact ⟨_, rfl⟩
    | cons b c =>
      have word : decode (.onDf2pk (dataTok8 b)) = .ok (.pkData b) := by revert b; decide
      let t := { packing (compressedTokens c) with
        pkCnt := 1, pkB1 := b, host := [.offer], inPort := [0x100#10] }
      refine ⟨t, run_succ_of_step (t := t) ?_ 0⟩
      change runToken (.onDf2pk (dataTok8 b)) _ = _
      rw [runToken_ok word]
      rfl

/-- ProgressInExactSteps, the host of its second clause: it takes in every step of the message. -/
theorem test_meets_progress_takes (k : Nat) :
    let s := State.powerOn none [0x100#10] (.offer :: List.replicate k .take)
    let u := draining (List.replicate k .take)
    s.Inv ∧ step s = .next u ∧ noReset k u ∧
    ∀ j v, j < k → run j u = .next v → v.pkOutq ≠ [] → v.host.head? = some .take := by
  refine ⟨?_, rfl, by simp [noReset, draining], ?_⟩
  · have powered : State.reset.Inv := by decide
    exact powered
  · intro j v hj hv _
    rw [run_host hv, draining, List.drop_replicate, List.head?_replicate, if_neg (by omega)]

/-- ResetCutsMessageShort: the message of test_meets_message, with reset asserted in DRAIN. -/
theorem test_meets_reset_in_message :
    run 2 idleWithMessage = .next messageAccepted ∧ messageAccepted.host = .reset :: [] ∧
    messageAccepted.out = idleWithMessage.out ++ [] ∧ endTok8 ∉ ([] : List Tok8) :=
  ⟨rfl, rfl, rfl, by simp⟩

end Sys2Proof.Tests
end

section
/-!
PROOF. The family 10_state.md: the readiness of `IN` (R32), the reset values (R34), the fields of STATUS
(R31), and the packer's registers while they hold no byte (R28).
-/

namespace Sys2Proof.Machine

/-! ## Runs and reachable states -/

/-- A predicate every step keeps is kept by a run. -/
theorem run_keeps {P : State → Prop} (keeps : ∀ {s u : State}, P s → step s = .next u → P u)
    {n : Nat} {s t : State} (init : P s) (h : run n s = .next t) : P t := by
  induction n generalizing s with
  | zero => cases h; exact init
  | succ n ih =>
    obtain ⟨u, first, rest⟩ := step_of_run_succ h
    exact ih (keeps init first) rest

/-- What holds at power-on, under any host, and is kept by every step holds in every reachable state. -/
theorem State.Reachable.induction {P : State → Prop}
    (powerOn : ∀ capacity tokens actions, P (State.powerOn capacity tokens actions))
    (keeps : ∀ {s u : State}, P s → step s = .next u → P u)
    {t : State} (reached : t.Reachable) : P t := by
  obtain ⟨capacity, tokens, actions, _, h⟩ := reached
  exact run_keeps keeps (powerOn capacity tokens actions) h

/-! ## The packer's operations, by PK_CNT -/

theorem exec_pkData_of_ready {s : State} (fault : s.fault = false) (queue : s.pkOutq = [])
    (b : Byte) : exec (.pkData b) s = .next (s.packByte b) :=
  if_pos ((packerReady_iff s).mpr ⟨fault, queue⟩)

theorem exec_pkEnd_of_ready {s : State} (fault : s.fault = false) (queue : s.pkOutq = []) :
    exec .pkEnd s = .next s.flushGroup :=
  if_pos ((packerReady_iff s).mpr ⟨fault, queue⟩)

theorem exec_pkData_of_pkCnt_zero {s : State} (fault : s.fault = false) (queue : s.pkOutq = [])
    (cnt : s.pkCnt = 0) (b : Byte) : exec (.pkData b) s = .next (s.holdFirst b) := by
  rw [exec_pkData_of_ready fault queue, State.packByte, cnt]

theorem exec_pkData_of_pkCnt_one {s : State} (fault : s.fault = false) (queue : s.pkOutq = [])
    (cnt : s.pkCnt = 1) (b : Byte) : exec (.pkData b) s = .next (s.holdSecond b) := by
  rw [exec_pkData_of_ready fault queue, State.packByte, cnt]

theorem exec_pkEnd_of_pkCnt_zero {s : State} (fault : s.fault = false) (queue : s.pkOutq = [])
    (cnt : s.pkCnt = 0) : exec .pkEnd s = .next (s.queueTokens [endTok6]) := by
  rw [exec_pkEnd_of_ready fault queue, State.flushGroup, State.partialGroup, cnt]
  rfl

theorem exec_pkEnd_of_pkCnt_one {s : State} (fault : s.fault = false) (queue : s.pkOutq = [])
    (cnt : s.pkCnt = 1) : exec .pkEnd s =
      .next (s.queueTokens ((group s.pkB1 0x00#8 0x00#8).map dataTok6 ++ [endTok6])) := by
  rw [exec_pkEnd_of_ready fault queue, State.flushGroup, State.partialGroup, cnt]

/-- The packer's writes leave the host's tokens where they are. -/
@[simp] theorem packByte_inPort (s : State) (b : Byte) : (s.packByte b).inPort = s.inPort := by
  rcases packByte_cases s b with ⟨-, hb⟩ | ⟨-, hb⟩ | ⟨-, hb⟩ <;> simp [hb]

@[simp] theorem flushGroup_inPort (s : State) : s.flushGroup.inPort = s.inPort := rfl

/-! ## The packer's registers while they hold no byte (R28) -/

/-- `PK_B1` and `PK_B2` are `0x00` where PK_CNT says that they hold no byte. -/
def State.UnheldBytesZero (s : State) : Prop :=
  (s.pkCnt = 0 → s.pkB1 = 0x00#8 ∧ s.pkB2 = 0x00#8) ∧ (s.pkCnt = 1 → s.pkB2 = 0x00#8)

/-- A packer that holds no byte and has cleared both registers; so it is after reset and after every
group it queues. -/
theorem unheldBytesZero_of_cleared {s : State} (b1 : s.pkB1 = 0x00#8) (b2 : s.pkB2 = 0x00#8) :
    s.UnheldBytesZero :=
  ⟨fun _ => ⟨b1, b2⟩, fun _ => b2⟩

theorem packByte_keeps_unheldBytesZero {s : State} (hs : s.UnheldBytesZero) (b : Byte) :
    (s.packByte b).UnheldBytesZero := by
  rcases packByte_cases s b with ⟨empty, hb⟩ | ⟨-, hb⟩ | ⟨-, hb⟩ <;> rw [hb]
  · have second : s.pkB2 = 0x00#8 := (hs.1 empty).2
    exact ⟨by simp, fun _ => second⟩
  · exact ⟨by simp, by simp⟩
  · exact unheldBytesZero_of_cleared rfl rfl

/-- Only reset and the packer's two operations write the packer's registers. -/
theorem step_keeps_unheldBytesZero {s u : State} (hs : s.UnheldBytesZero)
    (h : step s = .next u) : u.UnheldBytesZero := by
  cases step_effect h with
  | reset => exact unheldBytesZero_of_cleared rfl rfl
  | pkData b => exact packByte_keeps_unheldBytesZero (s := s.popHost.popDfOutq) hs b
  | pkEnd => exact unheldBytesZero_of_cleared rfl rfl
  | _ => simpa [State.UnheldBytesZero] using hs

theorem State.Reachable.unheldBytesZero {t : State} (reached : t.Reachable) :
    t.UnheldBytesZero :=
  reached.induction (fun _ _ _ => unheldBytesZero_of_cleared rfl rfl) step_keeps_unheldBytesZero

/-- Settles O28: the zero values by the invariant of the packer's registers, and each operation at each
PK_CNT by the write it makes there, which does not mention the registers that hold no byte. -/
theorem unheldBytesAreZeroAndUnread : Obligations.UnheldBytesAreZeroAndUnread := by
  refine ⟨fun t reached => reached.unheldBytesZero, ?pkEndZero, ?pkEndOne, ?pkDataZero, ?pkDataOne⟩
  case pkEndZero =>
    intro s x y fault queue cnt
    have other := exec_pkEnd_of_pkCnt_zero (s := { s with pkB1 := x, pkB2 := y }) fault queue cnt
    exact other.trans (exec_pkEnd_of_pkCnt_zero fault queue cnt).symm
  case pkEndOne =>
    intro s y fault queue cnt
    have other := exec_pkEnd_of_pkCnt_one (s := { s with pkB2 := y }) fault queue cnt
    exact other.trans (exec_pkEnd_of_pkCnt_one fault queue cnt).symm
  case pkDataZero =>
    intro s t b x y fault queue cnt taken
    rw [exec_pkData_of_pkCnt_zero fault queue cnt] at taken
    cases taken
    exact exec_pkData_of_pkCnt_zero (s := { s with pkB1 := x, pkB2 := y }) fault queue cnt b
  case pkDataOne =>
    intro s b y fault queue cnt
    have other := exec_pkData_of_pkCnt_one (s := { s with pkB2 := y }) fault queue cnt b
    exact other.trans (exec_pkData_of_pkCnt_one fault queue cnt b).symm

/-! ## IN_READY (R32) -/

/-- What a step does to the tokens the host holds: nothing, or it takes the first one, offered and
ready (R10, R80). -/
theorem step_inPort_cases {s u : State} (h : step s = .next u) :
    u.inPort = s.inPort ∨
    ∃ t ts, s.host.head? = some .offer ∧ s.inPort = t :: ts ∧ s.inReady t = true ∧
      u.inPort = ts := by
  cases step_effect h with
  | inData b ts host offered ready =>
    exact .inr ⟨_, ts, host, offered, ready, by simp [offered]⟩
  | inEnd ts host offered ready =>
    exact .inr ⟨_, ts, host, offered, ready, by simp [offered]⟩
  | inAbort ts host offered ready =>
    exact .inr ⟨_, ts, host, offered, ready, by simp [offered]⟩
  | inFault t ts r host offered ready =>
    exact .inr ⟨t, ts, host, offered, ready, by simp [offered]⟩
  | _ => exact .inl (by simp)

/-- A token at the head of the host's list that is not ready stays there, whatever the step. -/
theorem step_inPort_of_not_ready {s u : State} {t : Tok8} {ts : List Tok8}
    (offered : s.inPort = t :: ts) (unready : s.inReady t = false) (h : step s = .next u) :
    u.inPort = t :: ts := by
  rcases step_inPort_cases h with kept | ⟨t', ts', -, taken, ready, -⟩
  · rw [kept, offered]
  · obtain ⟨rfl, rfl⟩ := List.cons.inj (offered.symm.trans taken)
    simp [unready] at ready

/-- Settles O7: the formula of IN_READY by its terms, and the token that waits by what a step can take
from the host. -/
theorem inReadyFormula : Obligations.InReadyFormula := by
  refine ⟨fun s t => ?_, fun s u t ts => step_inPort_of_not_ready⟩
  rw [inReady_iff, bufferFull_iff]
  rfl

/-! ## The reset values (R34) -/

/-- Where `RST` is asserted the block takes the reset step and no other (R164). -/
theorem step_of_reset {s : State} {hs : List HostAction} (h : s.host = .reset :: hs) :
    step s = .next s.popHost.rst := by
  simp [step, State.chosenStep, h]

/-- A block at power-on is a block after reset: reset would leave it as it is (R181). -/
theorem rst_powerOn (capacity : Option Nat) (tokens : List Tok8) (actions : List HostAction) :
    (State.powerOn capacity tokens actions).rst = State.powerOn capacity tokens actions := rfl

/-- Settles O20: both at power-on and after the reset step the state is some `State.rst`, whose fields
are the values of the table. -/
theorem resetValues : Obligations.ResetValues := by
  intro u h
  obtain ⟨v, rfl⟩ : ∃ v : State, u = v.rst := by
    rcases h with ⟨capacity, tokens, actions, rfl⟩ | ⟨s, hs, asserted, h⟩
    · exact ⟨_, (rst_powerOn capacity tokens actions).symm⟩
    · rw [step_of_reset asserted] at h
      cases h
      exact ⟨_, rfl⟩
  simp

/-! ## STATUS (R31) -/

theorem status_phase (s : State) : s.status.extractLsb' 0 2 = phaseBits s.phase :=
  BitVec.extractLsb'_append_eq_right

theorem status_fault (s : State) : s.status.getLsbD 2 = s.fault := by
  rw [State.status, BitVec.getLsbD_append, if_neg (by decide), BitVec.getLsbD_append,
    if_pos (by decide)]
  simp

theorem status_faultCause (s : State) : s.status.extractLsb' 3 2 = causeBits s.faultCause := by
  rw [State.status, BitVec.extractLsb'_append_eq_of_le (by decide),
    BitVec.extractLsb'_append_eq_of_le (by decide)]
  exact BitVec.extractLsb'_append_eq_right

theorem status_bit5 (s : State) : s.status.getLsbD 5 = false := by
  rw [State.status, BitVec.getLsbD_append, if_neg (by decide), BitVec.getLsbD_append,
    if_neg (by decide), BitVec.getLsbD_append, if_neg (by decide), BitVec.getLsbD_append,
    if_pos (by decide)]
  decide

theorem status_faultToken (s : State) : s.status.extractLsb' 6 10 = s.faultToken := by
  rw [State.status, BitVec.extractLsb'_append_eq_of_le (by decide),
    BitVec.extractLsb'_append_eq_of_le (by decide), BitVec.extractLsb'_append_eq_of_le (by decide)]
  exact BitVec.extractLsb'_append_eq_left

/-- Settles O21, field by field; the codes of PHASE and FAULT_CAUSE are those the model names. -/
theorem statusFields : Obligations.StatusFields := fun s => by
  refine ⟨?phase, status_fault s, ?cause, status_bit5 s, status_faultToken s⟩
  case phase => rw [status_phase]; cases s.phase <;> rfl
  case cause => rw [status_faultCause]; cases s.faultCause <;> rfl

end Sys2Proof.Machine
end

section
/-!
PROOF. The family 30_encoding.md: the rows of the opcode table by match and mask (R66), the six classes
of the words on `IN` with their counts (R67), and the fault of an illegal word on `IN` (R68).
-/

namespace Sys2Proof.Machine

/-! ## A token word and its fields (R61, R62) -/

theorem kind8_append_data8 (t : Tok8) : kind8 t ++ data8 t = t :=
  BitVec.extractLsb'_append_extractLsb'

theorem kind6_append_data6 (t : Tok6) : kind6 t ++ data6 t = t :=
  BitVec.extractLsb'_append_extractLsb'

theorem setWidth_eq_data8 (t : Tok8) : t.setWidth 8 = data8 t :=
  BitVec.setWidth_eq_extractLsb' (by decide)

theorem setWidth_eq_data6 (t : Tok6) : t.setWidth 6 = data6 t :=
  BitVec.setWidth_eq_extractLsb' (by decide)

theorem kind8_toNat (t : Tok8) : (kind8 t).toNat = t.toNat / 256 := by
  have bound : t.toNat < 1024 := t.isLt
  rw [kind8, BitVec.extractLsb'_toNat, Nat.shiftRight_eq_div_pow]
  omega

theorem data8_toNat (t : Tok8) : (data8 t).toNat = t.toNat % 256 := by
  rw [data8, BitVec.extractLsb'_toNat, Nat.shiftRight_zero]

theorem kind8_eq_iff (t : Tok8) (k : BitVec 2) : kind8 t = k ↔ t.toNat / 256 = k.toNat := by
  rw [← BitVec.toNat_inj, kind8_toNat]

/-- The words of kind DATA are those built from a byte. -/
theorem eq_dataTok8_data8_iff (t : Tok8) : t = dataTok8 (data8 t) ↔ kind8 t = kindData :=
  ⟨fun h => h ▸ kind8_dataTok8 _, fun h => (dataTok8_data8 h).symm⟩

theorem eq_dataTok6_data6_iff (t : Tok6) : t = dataTok6 (data6 t) ↔ kind6 t = kindData :=
  ⟨fun h => h ▸ kind6_dataTok6 _, fun h => (dataTok6_data6 h).symm⟩

/-! ## Match and mask (R66) -/

/-- Masking with ones in the high field and zeros in the low one tests the high field alone. -/
theorem append_and_highMask_eq_zero_iff {m n : Nat} (x : BitVec m) (y : BitVec n) :
    (x ++ y) &&& (BitVec.allOnes m ++ 0#n) = 0#m ++ 0#n ↔ x = 0#m := by
  rw [BitVec.and_append, BitVec.and_allOnes, BitVec.and_zero, BitVec.append_left_inj]

/-- The mask `0x300` with match `0x000` selects the kind DATA of a `TOK8`. -/
theorem tok8_dataMask_iff (t : Tok8) : t &&& 0x300#10 = 0x000#10 ↔ kind8 t = kindData := by
  have field := append_and_highMask_eq_zero_iff (kind8 t) (data8 t)
  rwa [kind8_append_data8] at field

/-- The mask `0xC0` with match `0x00` selects the kind DATA of a `TOK6`. -/
theorem tok6_dataMask_iff (t : Tok6) : t &&& 0xC0#8 = 0x00#8 ↔ kind6 t = kindData := by
  have field := append_and_highMask_eq_zero_iff (kind6 t) (data6 t)
  rwa [kind6_append_data6] at field

/-- The full mask leaves the word, so its row has one word. -/
theorem tok8_fullMask (t : Tok8) : t &&& 0x3FF#10 = t := BitVec.and_allOnes

theorem tok6_fullMask (t : Tok6) : t &&& 0xFF#8 = t := BitVec.and_allOnes

/-! ## Decode against encode -/

/-- The decoder reads back the instruction from its token. -/
theorem decode_encode (i : Instr) : decode (encode i) = .ok i := by
  cases i with
  | inData b => simp [encode, decode, decodeIn]
  | pkData b => simp [encode, decode, decodeDf2pk]
  | mpData k => simp [encode, decode, decodePk2mp]
  | inEnd | inAbort | pkEnd | mpEnd => rfl

/-- A word that decodes is the token of the instruction it decodes to. -/
theorem eq_encode_of_decode {w : LinkToken} {i : Instr} (h : decode w = .ok i) : w = encode i := by
  cases w with
  | onIn t =>
    rcases decodeIn_cases t with ⟨kind, hd⟩ | ⟨rfl, hd⟩ | ⟨rfl, hd⟩ | ⟨-, -, hd⟩ | ⟨-, hd⟩ <;>
      cases hd.symm.trans h
    · rw [encode, dataTok8_data8 kind]
    · rfl
    · rfl
  | onDf2pk t =>
    rcases decodeDf2pk_cases t with ⟨kind, hd⟩ | ⟨rfl, hd⟩ | ⟨-, -, hd⟩ <;> cases hd.symm.trans h
    · rw [encode, dataTok8_data8 kind]
    · rfl
  | onPk2mp t =>
    rcases decodePk2mp_cases t with ⟨kind, hd⟩ | ⟨rfl, hd⟩ | ⟨-, -, hd⟩ <;> cases hd.symm.trans h
    · rw [encode, dataTok6_data6 kind]
    · rfl

/-- A word decodes to an instruction exactly where it is the instruction's token. -/
theorem decode_eq_ok_iff (w : LinkToken) (i : Instr) : decode w = .ok i ↔ w = encode i :=
  ⟨eq_encode_of_decode, fun h => h ▸ decode_encode i⟩

/-! ## The rows of each link (R66) -/

theorem decode_onIn_data_iff (t : Tok8) :
    decode (.onIn t) = .ok (.inData (data8 t)) ↔ kind8 t = kindData := by
  rw [decode_eq_ok_iff, encode, LinkToken.onIn.injEq, eq_dataTok8_data8_iff]

theorem decode_onIn_end_iff (t : Tok8) : decode (.onIn t) = .ok .inEnd ↔ t = endTok8 := by
  rw [decode_eq_ok_iff, encode, LinkToken.onIn.injEq]

theorem decode_onIn_abort_iff (t : Tok8) : decode (.onIn t) = .ok .inAbort ↔ t = abortTok8 := by
  rw [decode_eq_ok_iff, encode, LinkToken.onIn.injEq]

theorem decode_onDf2pk_data_iff (t : Tok8) :
    decode (.onDf2pk t) = .ok (.pkData (data8 t)) ↔ kind8 t = kindData := by
  rw [decode_eq_ok_iff, encode, LinkToken.onDf2pk.injEq, eq_dataTok8_data8_iff]

theorem decode_onDf2pk_end_iff (t : Tok8) : decode (.onDf2pk t) = .ok .pkEnd ↔ t = endTok8 := by
  rw [decode_eq_ok_iff, encode, LinkToken.onDf2pk.injEq]

theorem decode_onPk2mp_data_iff (t : Tok6) :
    decode (.onPk2mp t) = .ok (.mpData (data6 t)) ↔ kind6 t = kindData := by
  rw [decode_eq_ok_iff, encode, LinkToken.onPk2mp.injEq, eq_dataTok6_data6_iff]

theorem decode_onPk2mp_end_iff (t : Tok6) : decode (.onPk2mp t) = .ok .mpEnd ↔ t = endTok6 := by
  rw [decode_eq_ok_iff, encode, LinkToken.onPk2mp.injEq]

theorem decode_ne_ok_of_error {w : LinkToken} {r : Reject} (h : decode w = .error r) (i : Instr) :
    decode w ≠ .ok i := by
  simp [h]

/-- A word on `IN` is rejected exactly where it selects none of the link's rows. -/
theorem decode_onIn_error_iff (t : Tok8) : (∃ r, decode (.onIn t) = .error r) ↔
    kind8 t ≠ kindData ∧ t ≠ endTok8 ∧ t ≠ abortTok8 := by
  constructor
  · rintro ⟨r, rejected⟩
    have notOk := decode_ne_ok_of_error rejected
    exact ⟨fun kind => notOk _ ((decode_onIn_data_iff t).mpr kind),
      fun word => notOk _ ((decode_onIn_end_iff t).mpr word),
      fun word => notOk _ ((decode_onIn_abort_iff t).mpr word)⟩
  · rintro ⟨notData, notEnd, notAbort⟩
    rcases decodeIn_cases t with ⟨kind, -⟩ | ⟨word, -⟩ | ⟨word, -⟩ | ⟨-, -, hd⟩ | ⟨-, hd⟩
    · exact absurd kind notData
    · exact absurd word notEnd
    · exact absurd word notAbort
    · exact ⟨_, hd⟩
    · exact ⟨_, hd⟩

theorem decode_onDf2pk_error_iff (t : Tok8) : (∃ r, decode (.onDf2pk t) = .error r) ↔
    kind8 t ≠ kindData ∧ t ≠ endTok8 := by
  constructor
  · rintro ⟨r, rejected⟩
    have notOk := decode_ne_ok_of_error rejected
    exact ⟨fun kind => notOk _ ((decode_onDf2pk_data_iff t).mpr kind),
      fun word => notOk _ ((decode_onDf2pk_end_iff t).mpr word)⟩
  · rintro ⟨notData, notEnd⟩
    rcases decodeDf2pk_cases t with ⟨kind, -⟩ | ⟨word, -⟩ | ⟨-, -, hd⟩
    · exact absurd kind notData
    · exact absurd word notEnd
    · exact ⟨_, hd⟩

theorem decode_onPk2mp_error_iff (t : Tok6) : (∃ r, decode (.onPk2mp t) = .error r) ↔
    kind6 t ≠ kindData ∧ t ≠ endTok6 := by
  constructor
  · rintro ⟨r, rejected⟩
    have notOk := decode_ne_ok_of_error rejected
    exact ⟨fun kind => notOk _ ((decode_onPk2mp_data_iff t).mpr kind),
      fun word => notOk _ ((decode_onPk2mp_end_iff t).mpr word)⟩
  · rintro ⟨notData, notEnd⟩
    rcases decodePk2mp_cases t with ⟨kind, -⟩ | ⟨word, -⟩ | ⟨-, -, hd⟩
    · exact absurd kind notData
    · exact absurd word notEnd
    · exact ⟨_, hd⟩

/-- Settles O1: a mask of the kind tests the kind, a full mask tests the word, and each row's
instruction is read exactly from its tokens. -/
theorem opcodeRowsSelectOperations : Obligations.OpcodeRowsSelectOperations := by
  refine ⟨fun t => ?onIn, fun t => ?onDf2pk, fun t => ?onPk2mp⟩
  case onIn =>
    rw [setWidth_eq_data8, tok8_fullMask, Ne, tok8_dataMask_iff]
    exact ⟨decode_onIn_data_iff t, decode_onIn_end_iff t, decode_onIn_abort_iff t,
      decode_onIn_error_iff t⟩
  case onDf2pk =>
    rw [setWidth_eq_data8, tok8_fullMask, Ne, tok8_dataMask_iff]
    exact ⟨decode_onDf2pk_data_iff t, decode_onDf2pk_end_iff t, decode_onDf2pk_error_iff t⟩
  case onPk2mp =>
    rw [setWidth_eq_data6, tok6_fullMask, Ne, tok6_dataMask_iff]
    exact ⟨decode_onPk2mp_data_iff t, decode_onPk2mp_end_iff t, decode_onPk2mp_error_iff t⟩

/-! ## The illegal words on IN (R68) -/

theorem decode_onIn_of_reserved_kind {t : Tok8} (kind : kind8 t = 0b11#2) :
    decode (.onIn t) = .error .reservedKind := by
  simp [decode, decodeIn, kind, kindData, kindEnd, kindAbort]

theorem decode_onIn_of_ctrl_data {t : Tok8} (kind : kind8 t = kindEnd ∨ kind8 t = kindAbort)
    (data : data8 t ≠ 0x00#8) : decode (.onIn t) = .error .ctrlDataNonzero := by
  rcases kind with kind | kind <;> simp [decode, decodeIn, kind, data, kindData, kindEnd, kindAbort]

/-! ## The classes of the words on IN (R67) -/

theorem decode_onIn_of_le_0FF {t : Tok8} (h : t.toNat ≤ 0x0FF) :
    decode (.onIn t) = .ok (.inData (t.setWidth 8)) := by
  rw [setWidth_eq_data8, decode_onIn_data_iff, kind8_eq_iff]
  exact Nat.div_eq_of_lt (Nat.lt_succ_of_le h)

theorem decode_onIn_of_eq_100 {t : Tok8} (h : t.toNat = 0x100) : decode (.onIn t) = .ok .inEnd :=
  (decode_onIn_end_iff t).mpr (BitVec.eq_of_toNat_eq h)

theorem decode_onIn_of_eq_200 {t : Tok8} (h : t.toNat = 0x200) : decode (.onIn t) = .ok .inAbort :=
  (decode_onIn_abort_iff t).mpr (BitVec.eq_of_toNat_eq h)

theorem data8_ne_zero_of_mod_ne_zero {t : Tok8} (h : t.toNat % 256 ≠ 0) : data8 t ≠ 0x00#8 := by
  rwa [Ne, ← BitVec.toNat_inj, data8_toNat]

theorem decode_onIn_of_101_to_1FF {t : Tok8} (lower : 0x101 ≤ t.toNat) (upper : t.toNat ≤ 0x1FF) :
    decode (.onIn t) = .error .ctrlDataNonzero := by
  have quotient : t.toNat / 256 = 1 := by omega
  exact decode_onIn_of_ctrl_data (.inl ((kind8_eq_iff t kindEnd).mpr quotient))
    (data8_ne_zero_of_mod_ne_zero (by omega))

theorem decode_onIn_of_201_to_2FF {t : Tok8} (lower : 0x201 ≤ t.toNat) (upper : t.toNat ≤ 0x2FF) :
    decode (.onIn t) = .error .ctrlDataNonzero := by
  have quotient : t.toNat / 256 = 2 := by omega
  exact decode_onIn_of_ctrl_data (.inr ((kind8_eq_iff t kindAbort).mpr quotient))
    (data8_ne_zero_of_mod_ne_zero (by omega))

theorem decode_onIn_of_ge_300 {t : Tok8} (lower : 0x300 ≤ t.toNat) :
    decode (.onIn t) = .error .reservedKind := by
  have bound : t.toNat < 1024 := t.isLt
  have quotient : t.toNat / 256 = 3 := by omega
  exact decode_onIn_of_reserved_kind ((kind8_eq_iff t 0b11#2).mpr quotient)

/-! ## The counts of the classes (R67) -/

/-- The numbers below `n` in an interval that lies below `n`, counted. -/
theorem countP_range_between {n lo hi : Nat} (bound : hi < n) :
    (List.range n).countP (fun w => decide (lo ≤ w ∧ w ≤ hi)) = hi + 1 - lo := by
  have interval : (Finset.range n).filter (fun w => lo ≤ w ∧ w ≤ hi) = Finset.Icc lo hi := by
    ext w
    simp only [Finset.mem_filter, Finset.mem_range, Finset.mem_Icc]
    omega
  calc (List.range n).countP (fun w => decide (lo ≤ w ∧ w ≤ hi))
      = Nat.count (fun w => lo ≤ w ∧ w ≤ hi) n := rfl
    _ = hi + 1 - lo := by rw [Nat.count_eq_card_filter_range, interval, Nat.card_Icc]

/-- An interval of words on `IN` whose every word has the answer counted has as many such words as it
has words. -/
theorem countP_onIn_between {lo hi : Nat} {c : Except Reject Instr → Bool} (bound : hi < 1024)
    (answers : ∀ t : Tok8, lo ≤ t.toNat → t.toNat ≤ hi → c (decode (.onIn t)) = true) :
    (List.range 1024).countP (fun w =>
      decide (lo ≤ w ∧ w ≤ hi) && c (decode (.onIn (BitVec.ofNat 10 w)))) = hi + 1 - lo := by
  rw [← countP_range_between bound]
  refine List.countP_congr fun w hw => ?_
  have word : (BitVec.ofNat 10 w).toNat = w := Nat.mod_eq_of_lt (List.mem_range.mp hw)
  have answer := answers (BitVec.ofNat 10 w)
  rw [word] at answer
  simpa using answer

/-- R67's answers, class by class in the order of the words. -/
theorem decode_onIn_eq_of_range (t : Tok8) : decode (.onIn t) =
    if t.toNat ≤ 0x0FF then .ok (.inData (t.setWidth 8))
    else if t.toNat = 0x100 then .ok .inEnd
    else if t.toNat ≤ 0x1FF then .error .ctrlDataNonzero
    else if t.toNat = 0x200 then .ok .inAbort
    else if t.toNat ≤ 0x2FF then .error .ctrlDataNonzero
    else .error .reservedKind := by
  split_ifs
  · exact decode_onIn_of_le_0FF ‹_›
  · exact decode_onIn_of_eq_100 ‹_›
  · exact decode_onIn_of_101_to_1FF (by omega) ‹_›
  · exact decode_onIn_of_eq_200 ‹_›
  · exact decode_onIn_of_201_to_2FF (by omega) ‹_›
  · exact decode_onIn_of_ge_300 (by omega)

/-- Settles O2: each class's answer holds over its whole range, so its size is the length of its
range. -/
theorem inWordsFallInSixClasses : Obligations.InWordsFallInSixClasses := by
  refine ⟨decode_onIn_eq_of_range, ?_⟩
  intro classSize
  have size {lo hi n : Nat} {c : Except Reject Instr → Bool} (bound : hi < 1024)
      (length : hi + 1 - lo = n)
      (answers : ∀ t : Tok8, lo ≤ t.toNat → t.toNat ≤ hi → c (decode (.onIn t)) = true) :
      classSize lo hi c = n := (countP_onIn_between bound answers).trans length
  clear_value classSize
  refine ⟨size (by decide) rfl ?data, size (by decide) rfl ?endMessage,
    size (by decide) rfl ?abort, size (by decide) rfl ?endData, size (by decide) rfl ?abortData,
    size (by decide) rfl ?reserved⟩
  case data => intro t _ upper; rw [decode_onIn_of_le_0FF upper]; rfl
  case endMessage => intro t lower upper; rw [decode_onIn_of_eq_100 (by omega)]; rfl
  case abort => intro t lower upper; rw [decode_onIn_of_eq_200 (by omega)]; rfl
  case endData => intro t lower upper; rw [decode_onIn_of_101_to_1FF lower upper]; rfl
  case abortData => intro t lower upper; rw [decode_onIn_of_201_to_2FF lower upper]; rfl
  case reserved => intro t lower _; rw [decode_onIn_of_ge_300 lower]; rfl

/-! ## Accepting a token on IN (R80, R68) -/

/-- Where the host offers a token that is ready, the step takes it off `IN` and runs it. -/
theorem step_of_offer {s : State} {hs : List HostAction} {t : Tok8} {ts : List Tok8}
    (host : s.host = .offer :: hs) (offered : s.inPort = t :: ts) (ready : s.inReady t = true) :
    step s = runToken (.onIn t) { s with host := hs, inPort := ts } := by
  have chosen : s.chosenStep = .acceptIn t := by simp [State.chosenStep, host, offered, ready]
  have popped : s.popHost.popIn = { s with host := hs, inPort := ts } := by
    simp [State.popIn, State.popHost, host, offered]
  rw [step, chosen, ← popped]

/-- Settles O13: the offered word is rejected, by its kind and data, and the step raises the fault of
the reason. -/
theorem illegalInWordRaisesFault : Obligations.IllegalInWordRaisesFault := by
  intro s hs t ts host offered ready
  rw [step_of_offer host offered ready]
  exact ⟨fun kind => runToken_error (decode_onIn_of_reserved_kind kind) _,
    fun kind data => runToken_error (decode_onIn_of_ctrl_data kind data) _⟩

end Sys2Proof.Machine
end

section
/-!
PROOF. The family 40_encoder.md: the three operations a host performs on `IN` (R81, R82, R83), where
they are accepted and where their token waits (R32).
-/

namespace Sys2Proof.Machine

/-! ## Readiness by the kind of the word (R32) -/

theorem inReady_dataTok8_iff (s : State) (b : Byte) : s.inReady (dataTok8 b) = true ↔
    s.fault = false ∧ s.phase ≠ .drain ∧ s.maxPayload ≠ some s.dfBuf.length := by
  rw [inReady_iff, kind8_dataTok8, bufferFull_iff, and_iff_right rfl]

/-- A word that is not DATA needs no room in the payload buffer. -/
theorem inReady_iff_of_kind_ne_data {t : Tok8} (kind : kind8 t ≠ kindData) (s : State) :
    s.inReady t = true ↔ s.fault = false ∧ s.phase ≠ .drain := by
  simp [inReady_iff, kind]

theorem inReady_endTok8_iff (s : State) :
    s.inReady endTok8 = true ↔ s.fault = false ∧ s.phase ≠ .drain :=
  inReady_iff_of_kind_ne_data (by decide) s

theorem inReady_abortTok8_iff (s : State) :
    s.inReady abortTok8 = true ↔ s.fault = false ∧ s.phase ≠ .drain :=
  inReady_iff_of_kind_ne_data (by decide) s

/-- No word is ready in FAULT or in DRAIN. -/
theorem not_inReady_of_fault_or_drain {s : State} (closed : s.fault = true ∨ s.phase = .drain)
    (t : Tok8) : s.inReady t = false := by
  refine Bool.eq_false_iff.mpr fun ready => ?_
  obtain ⟨fault, phase, -⟩ := (inReady_iff s t).mp ready
  rcases closed with faulted | draining
  · simp [fault] at faulted
  · exact phase draining

/-- No DATA word is ready while the payload buffer is full. -/
theorem not_inReady_dataTok8_of_full {s : State} (full : s.maxPayload = some s.dfBuf.length)
    (b : Byte) : s.inReady (dataTok8 b) = false := by
  refine Bool.eq_false_iff.mpr fun ready => ?_
  obtain ⟨-, -, room⟩ := (inReady_dataTok8_iff s b).mp ready
  exact room full

/-! ## The operations where their token is ready -/

theorem exec_inData_of_ready {s : State} {b : Byte} (ready : s.inReady (dataTok8 b) = true) :
    exec (.inData b) s = .next (s.appendPayload b) :=
  if_pos ready

theorem exec_inEnd_of_ready {s : State} (ready : s.inReady endTok8 = true) :
    exec .inEnd s = .next (s.compress.enterPhase .drain) :=
  if_pos ready

theorem exec_inAbort_of_ready {s : State} (ready : s.inReady abortTok8 = true) :
    exec .inAbort s = .next (s.clearPayload.enterPhase .idle) :=
  if_pos ready

/-! ## The step with a token on IN (R80) -/

/-- Where the host offers the token of an instruction and it is ready, the step takes it off `IN` and is
`exec` of the instruction. -/
theorem step_of_offer_encode {s : State} {hs : List HostAction} {t : Tok8} {ts : List Tok8}
    {i : Instr} (word : encode i = .onIn t) (host : s.host = .offer :: hs)
    (offered : s.inPort = t :: ts) (ready : s.inReady t = true) :
    step s = exec i { s with host := hs, inPort := ts } := by
  have decoded : decode (.onIn t) = .ok i := word ▸ decode_encode i
  rw [step_of_offer host offered ready, runToken_ok decoded]

/-- A token that is not ready leaves the host's tokens as they are, whatever the step. -/
theorem step_keeps_inPort_of_not_ready {s u : State} {t : Tok8} {ts : List Tok8}
    (unready : s.inReady t = false) (offered : s.inPort = t :: ts) (h : step s = .next u) :
    u.inPort = s.inPort :=
  (step_inPort_of_not_ready offered unready h).trans offered.symm

/-! ## The three operations (R81, R82, R83) -/

/-- The word `0x000 | b` is the DATA token of `b` (R66). -/
theorem zero_or_setWidth_eq_dataTok8 (b : Byte) : 0x000#10 ||| b.setWidth 10 = dataTok8 b := by
  rw [BitVec.zero_or, BitVec.setWidth_eq_append (by decide)]
  rfl

/-- Settles O8: the `requires` of R81 is the readiness of the DATA token, under which `exec`, and so the
step, is the operation's write. -/
theorem inDataAppendsByte : Obligations.InDataAppendsByte := by
  intro s b
  rw [zero_or_setWidth_eq_dataTok8]
  refine ⟨fun fault phase room => ?accepted, fun closed ts u => ?waits⟩
  case accepted =>
    have ready := (inReady_dataTok8_iff s b).mpr ⟨fault, phase, room⟩
    refine ⟨exec_inData_of_ready ready, fun hs ts host offered => ?_⟩
    exact (step_of_offer_encode rfl host offered ready).trans (exec_inData_of_ready ready)
  case waits =>
    have unready : s.inReady (dataTok8 b) = false := by
      rcases closed with faulted | draining | full
      · exact not_inReady_of_fault_or_drain (.inl faulted) _
      · exact not_inReady_of_fault_or_drain (.inr draining) _
      · exact not_inReady_dataTok8_of_full full b
    exact step_keeps_inPort_of_not_ready unready

/-- Settles O9: the word `0x100` is the END token, which is ready whether or not the buffer is full; the
words of R101 are those of `compressedTokens`. -/
theorem inEndCompressesPayload : Obligations.InEndCompressesPayload := by
  intro s
  refine ⟨fun fault phase => ?accepted, fun closed ts u => ?waits⟩
  case accepted =>
    have ready := (inReady_endTok8_iff s).mpr ⟨fault, phase⟩
    refine ⟨exec_inEnd_of_ready ready, fun hs ts host offered => ?_⟩
    exact (step_of_offer_encode rfl host offered ready).trans (exec_inEnd_of_ready ready)
  case waits => exact step_keeps_inPort_of_not_ready (not_inReady_of_fault_or_drain closed _)

/-- Settles O10: the word `0x200` is the ABORT token, ready under the same condition as END. -/
theorem inAbortDiscardsPayload : Obligations.InAbortDiscardsPayload := by
  intro s
  refine ⟨fun fault phase => ?accepted, fun closed ts u => ?waits⟩
  case accepted =>
    have ready := (inReady_abortTok8_iff s).mpr ⟨fault, phase⟩
    refine ⟨exec_inAbort_of_ready ready, fun hs ts host offered => ?_⟩
    exact (step_of_offer_encode rfl host offered ready).trans (exec_inAbort_of_ready ready)
  case waits => exact step_keeps_inPort_of_not_ready (not_inReady_of_fault_or_drain closed _)

end Sys2Proof.Machine
end

section
/-!
PROOF. The family 41_deflate.md: `DF.EMIT` hands the head of `DF_OUTQ` to the packer, and no other step
but reset writes the packer's registers (R102).
-/

namespace Sys2Proof.Machine

/-- Where `DF.EMIT` is enabled it never competes: accepting needs another PHASE, the `OUT` step a token
in `PK_OUTQ`, and only reset goes first (R80, R164). -/
theorem chosenStep_eq_dfEmit {s : State} {t : Tok8} {ts : List Tok8} (ready : s.dfEmitReady = true)
    (pending : s.dfOutq = t :: ts) (host : s.host.head? ≠ some .reset) :
    s.chosenStep = .dfEmit t := by
  obtain ⟨-, draining, queue⟩ := (dfEmitReady_iff s).mp ready
  have guard := chosenStep_guard s
  generalize s.chosenStep = k at guard ⊢
  cases guard with
  | reset asserted => exact absurd asserted host
  | acceptIn t' _ _ _ accepts => simp [not_inReady_of_fault_or_drain (.inr draining) t'] at accepts
  | dfEmit _ _ _ head => rw [(List.cons.inj (head.symm.trans pending)).1]
  | emitOut _ _ _ head => simp [queue] at head
  | wait _ idle => simp [pending, ready] at idle

/-- Where `DF.EMIT` is enabled, the step takes the head off `DF_OUTQ` and runs it. -/
theorem step_of_dfEmit {s : State} {t : Tok8} {ts : List Tok8} (ready : s.dfEmitReady = true)
    (pending : s.dfOutq = t :: ts) (host : s.host.head? ≠ some .reset) :
    step s = runToken (.onDf2pk t) { s with host := s.host.tail, dfOutq := ts } := by
  have popped : s.popHost.popDfOutq = { s with host := s.host.tail, dfOutq := ts } := by
    simp [State.popDfOutq, State.popHost, pending]
  rw [step, chosenStep_eq_dfEmit ready pending host, ← popped]

/-- A word on `DF2PK` runs by the case of R102: a DATA word as `PK.DATA` of its byte, `0x100` as
`PK.END`, any other as the internal fault. -/
theorem runToken_onDf2pk (t : Tok8) (s : State) : runToken (.onDf2pk t) s =
    if t &&& 0x300#10 = 0x000#10 then exec (.pkData (t.setWidth 8)) s
    else if t = 0x100#10 then exec .pkEnd s
    else .next (s.raiseFault .internalKind t) := by
  simp only [tok8_dataMask_iff, setWidth_eq_data8]
  rcases decodeDf2pk_cases t with ⟨kind, hd⟩ | ⟨rfl, hd⟩ | ⟨kind, notEnd, hd⟩
  · rw [runToken_ok (lt := .onDf2pk t) hd, if_pos kind]
  · rw [runToken_ok (lt := .onDf2pk _) hd, if_neg (by decide)]
    exact (if_pos rfl).symm
  · rw [runToken_error (lt := .onDf2pk t) hd, if_neg kind]
    exact (if_neg notEnd).symm

/-- A step is the reset step, or a `DF.EMIT` with its `requires`, or it keeps the packer's registers; in
the last case it keeps `DF_OUTQ` too, unless it enters DRAIN (`IN.END`). -/
theorem step_packer_cases {s u : State} (h : step s = .next u) :
    s.host.head? = some .reset ∨
    (s.dfOutq ≠ [] ∧ s.dfEmitReady = true) ∨
    ((u.pkCnt = s.pkCnt ∧ u.pkB1 = s.pkB1 ∧ u.pkB2 = s.pkB2) ∧
      (u.dfOutq = s.dfOutq ∨ (s.phase ≠ .drain ∧ u.phase = .drain))) := by
  cases step_effect h with
  | reset host => exact .inl host
  | pkData _ _ _ pending ready => exact .inr (.inl ⟨by simp [pending], ready⟩)
  | pkEnd _ _ pending ready => exact .inr (.inl ⟨by simp [pending], ready⟩)
  | pkFault _ _ _ pending ready => exact .inr (.inl ⟨by simp [pending], ready⟩)
  | inEnd _ _ _ ready =>
    obtain ⟨-, phase, -⟩ := (inReady_iff s endTok8).mp ready
    exact .inr (.inr ⟨⟨rfl, rfl, rfl⟩, .inr ⟨phase, rfl⟩⟩)
  | _ => exact .inr (.inr ⟨⟨rfl, rfl, rfl⟩, .inl rfl⟩)

/-- Settles O27: under the `requires` the step is `DF.EMIT` and runs the popped word by its case; where
one of the `requires` fails, the step is one that keeps the packer's registers. -/
theorem dfEmitHandsTokenToPacker : Obligations.DfEmitHandsTokenToPacker := by
  refine ⟨?emits, ?waits, ?otherPhase⟩
  case emits =>
    intro s t ts fault draining pending queue host
    have ready := (dfEmitReady_iff s).mpr ⟨fault, draining, queue⟩
    rw [step_of_dfEmit ready pending host, runToken_onDf2pk]
    rfl
  case waits =>
    intro s u draining blocked host h
    rcases step_packer_cases h with reset | ⟨pending, ready⟩ | ⟨kept, same | ⟨phase, -⟩⟩
    · exact absurd reset host
    · obtain ⟨fault, -, queue⟩ := (dfEmitReady_iff s).mp ready
      simp [fault, pending, queue] at blocked
    · exact ⟨same, kept⟩
    · exact absurd draining phase
  case otherPhase =>
    intro s u phase host h
    rcases step_packer_cases h with reset | ⟨-, ready⟩ | ⟨⟨cnt, b1, b2⟩, queue⟩
    · exact absurd reset host
    · obtain ⟨-, draining, -⟩ := (dfEmitReady_iff s).mp ready
      exact absurd draining phase
    · exact ⟨cnt, b1, b2, queue.imp_right And.right⟩

end Sys2Proof.Machine
end

section
/-!
PROOF. The family 42_packer.md: the layout of a group (R121) and the packer's two operations, by PK_CNT
(R122, R123).
-/

namespace Sys2Proof.Machine

/-! ## The layout of a group (R121) -/

/-- A slice that crosses the border of two joined words joins the low bits of the high word to the top
bits of the low word. -/
theorem extractLsb'_append_of_crosses {v w : Nat} (start m k : Nat) (border : w = start + k)
    (x : BitVec v) (y : BitVec w) :
    (x ++ y).extractLsb' start (m + k) = x.extractLsb' 0 m ++ y.extractLsb' start k := by
  rw [← BitVec.extractLsb'_append_extractLsb'_eq_extractLsb' border,
    BitVec.extractLsb'_append_eq_of_le le_rfl, BitVec.extractLsb'_append_eq_of_add_le border.ge,
    Nat.sub_self]

/-- Settles O22: `group` is those slices by definition; `c1` and `c4` lie in one byte of the group word,
`c2` and `c3` cross the border of two. -/
theorem groupLayout : Obligations.GroupLayout := by
  intro b1 b2 b3
  refine ⟨_, _, _, _, rfl, rfl, rfl, rfl, rfl, ?bits23to18, ?bits17to12, ?bits11to6, ?bits5to0⟩
  case bits23to18 =>
    rw [BitVec.extractLsb'_append_eq_of_le (by decide), BitVec.extractLsb'_append_eq_of_le (by decide)]
  case bits17to12 =>
    rw [BitVec.extractLsb'_append_eq_of_le (by decide)]
    exact extractLsb'_append_of_crosses 4 2 4 rfl b1 b2
  case bits11to6 =>
    have low : (b1 ++ b2).extractLsb' 0 4 = b2.extractLsb' 0 4 :=
      BitVec.extractLsb'_append_eq_of_add_le (by decide)
    rw [← low]
    exact extractLsb'_append_of_crosses 6 4 2 rfl (b1 ++ b2) b3
  case bits5to0 => exact BitVec.extractLsb'_append_eq_of_add_le (by decide)

/-! ## The packer's operations, by PK_CNT (R122, R123) -/

/-- The third byte of a group makes the packer queue the group (R122). -/
theorem exec_pkData_of_pkCnt_two {s : State} (fault : s.fault = false) (queue : s.pkOutq = [])
    (cnt : s.pkCnt = 2) (b : Byte) : exec (.pkData b) s =
      .next (s.queueTokens ((group s.pkB1 s.pkB2 b).map dataTok6)) := by
  rw [exec_pkData_of_ready fault queue, State.packByte, cnt]

/-- The DATA words of the partial group, by PK_CNT (R123). -/
theorem partialGroup_map_dataTok6 (s : State) : s.partialGroup.map dataTok6 =
    if s.pkCnt = 0 then []
    else if s.pkCnt = 1 then (group s.pkB1 0x00#8 0x00#8).map (fun c => 0b00#2 ++ c)
    else (group s.pkB1 s.pkB2 0x00#8).map (fun c => 0b00#2 ++ c) := by
  rcases partialGroup_cases s with ⟨cnt, hg⟩ | ⟨cnt, hg⟩ | ⟨cnt, hg⟩
  · rw [hg, if_pos cnt, List.map_nil]
  · rw [hg, cnt]; rfl
  · rw [hg, cnt]; rfl

/-- Settles O24: by PK_CNT, the write `PK.DATA` makes there. -/
theorem pkDataFillsGroup : Obligations.PkDataFillsGroup := fun _ b fault queue =>
  ⟨fun cnt => exec_pkData_of_pkCnt_zero fault queue cnt b,
   fun cnt => exec_pkData_of_pkCnt_one fault queue cnt b,
   fun cnt => exec_pkData_of_pkCnt_two fault queue cnt b⟩

/-- Settles O25: `PK.END` queues the DATA words of the partial group, by PK_CNT, and then END, whose word
is `0x40`. -/
theorem pkEndFlushesGroup : Obligations.PkEndFlushesGroup := by
  intro s fault queue
  rw [exec_pkEnd_of_ready fault queue, State.flushGroup, partialGroup_map_dataTok6]
  rfl

end Sys2Proof.Machine
end

section
/-!
PROOF. The family 43_mapper.md: the alphabet (R140), and the mapper's two operations in the `OUT` step
(R141, R142).
-/

namespace Sys2Proof.Machine

/-! ## The alphabet (R140) -/

/-- The character at the index of a code is found where it is looked up. -/
theorem alphabet_getElem? (k : Code) : alphabet[k.toNat]? = some (alpha k) :=
  List.getElem?_eq_getElem _

/-- The code on `OUT` of the character at the index of a code. -/
theorem alphabet_map_getElem? (k : Code) :
    (alphabet.map fun c => BitVec.ofNat 8 c.toNat)[k.toNat]? = some (alphaCode k) := by
  rw [List.getElem?_map, alphabet_getElem?, Option.map_some, alphaCode]

/-- Settles O31: the string of R140 computes to `alphabet` and its table to the alphabet's codes, so the two
lookups are those above. -/
theorem alphabetTable : Obligations.AlphabetTable :=
  fun k => ⟨alphabet_getElem? k, alphabet_map_getElem? k⟩

/-! ## The words of `PK2MP` (R62, R141) -/

theorem kind6_toNat (t : Tok6) : (kind6 t).toNat = t.toNat / 64 := by
  have bound : t.toNat < 256 := t.isLt
  rw [kind6, BitVec.extractLsb'_toNat, Nat.shiftRight_eq_div_pow]
  omega

/-- The words of kind DATA are the range `0x00..0x3F` of R141. -/
theorem kind6_eq_kindData_iff (t : Tok6) : kind6 t = kindData ↔ t.toNat ≤ 0x3F := by
  have zero : kindData.toNat = 0 := rfl
  rw [← BitVec.toNat_inj, kind6_toNat, zero]
  omega

/-! ## The mapper's operations where it takes a token -/

theorem exec_mpData_of_ready {s : State} (ready : s.mapperReady = true) (k : Code) :
    exec (.mpData k) s = .next (s.emit (dataTok8 (alphaCode k))) :=
  if_pos ready

theorem exec_mpEnd_of_ready {s : State} (ready : s.mapperReady = true) :
    exec .mpEnd s = .next ((s.emit endTok8).enterPhase .idle) :=
  if_pos ready

/-! ## The `OUT` step (R80) -/

/-- Where the host takes and the mapper is ready, the step takes the head off `PK_OUTQ` and runs it. -/
theorem step_of_take {s : State} {hs : List HostAction} {t : Tok6} {ts : List Tok6}
    (host : s.host = .take :: hs) (pending : s.pkOutq = t :: ts) (ready : s.mapperReady = true) :
    step s = runToken (.onPk2mp t) { s with host := hs, pkOutq := ts } := by
  have chosen : s.chosenStep = .emitOut t := by simp [State.chosenStep, host, pending, ready]
  have popped : s.popHost.popPkOutq = { s with host := hs, pkOutq := ts } := by
    simp [State.popPkOutq, State.popHost, host, pending]
  rw [step, chosen, ← popped]

/-- A word on `PK2MP` runs by the case of R141: `0x00..0x3F` emits the character of its code, `0x40` is
`MP.END`, any other word raises the internal fault. -/
theorem runToken_onPk2mp {s : State} (ready : s.mapperReady = true) (t : Tok6) :
    runToken (.onPk2mp t) s =
      if t.toNat ≤ 0x3F then .next (s.emit (dataTok8 (alphaCode (t.setWidth 6))))
      else if t = 0x40#8 then exec .mpEnd s
      else .next (s.raiseFault .internalKind (t.setWidth 10)) := by
  simp only [← kind6_eq_kindData_iff, setWidth_eq_data6]
  rcases decodePk2mp_cases t with ⟨kind, hd⟩ | ⟨rfl, hd⟩ | ⟨kind, notEnd, hd⟩
  · rw [runToken_ok (lt := .onPk2mp t) hd, if_pos kind, exec_mpData_of_ready ready]
  · rw [runToken_ok (lt := .onPk2mp _) hd, if_neg (by decide)]
    exact (if_pos rfl).symm
  · rw [runToken_error (lt := .onPk2mp t) hd, if_neg kind]
    exact (if_neg notEnd).symm

/-- Settles O34: with FAULT 0 the mapper is ready, so `exec` is its write, and the step runs the popped
word by its case. -/
theorem mpDataEmitsCharacter : Obligations.MpDataEmitsCharacter := by
  refine ⟨fun s k fault => ?atExec, fun s hs t ts host fault pending => ?atStep⟩
  case atExec => exact exec_mpData_of_ready ((mapperReady_iff s).mpr fault) k
  case atStep =>
    have ready := (mapperReady_iff s).mpr fault
    have stillReady : { s with host := hs, pkOutq := ts }.mapperReady = true := ready
    rw [step_of_take host pending ready, runToken_onPk2mp stillReady]
    rfl

/-- Settles O35: `0x100` and `0x40` are the END tokens of `OUT` and of `PK2MP`, so the step with `0x40`
pending is `exec` of `MP.END` after the pop. -/
theorem mpEndClosesMessage : Obligations.MpEndClosesMessage := by
  refine ⟨fun s fault => ?atExec, fun s hs ts host fault pending => ?atStep⟩
  case atExec => exact exec_mpEnd_of_ready ((mapperReady_iff s).mpr fault)
  case atStep =>
    have ready := (mapperReady_iff s).mpr fault
    have decoded : decode (.onPk2mp 0x40#8) = .ok .mpEnd := decode_encode .mpEnd
    rw [step_of_take host pending ready, runToken_ok decoded]
    exact exec_mpEnd_of_ready ready

end Sys2Proof.Machine
end

section
/-!
PROOF. The family 60_exceptions.md: what a faulting step writes (R161), and that a faulted block takes no
step but reset (R162).
-/

namespace Sys2Proof.Machine

/-! ## The step that raises a fault (R161) -/

/-- The packer's writes leave FAULT as it is. -/
@[simp] theorem packByte_fault (s : State) (b : Byte) : (s.packByte b).fault = s.fault := by
  rcases packByte_cases s b with ⟨-, hb⟩ | ⟨-, hb⟩ | ⟨-, hb⟩ <;> simp [hb]

@[simp] theorem flushGroup_fault (s : State) : s.flushGroup.fault = s.fault := rfl

/-- On `IN` a word is rejected for its kind or for its data (R68). -/
theorem rejectCause_of_decodeIn_error {t : Tok8} {r : Reject} (illegal : decodeIn t = .error r) :
    rejectCause r = .reservedKind ∨ rejectCause r = .ctrlDataNonzero := by
  rcases decodeIn_cases t with ⟨-, hd⟩ | ⟨-, hd⟩ | ⟨-, hd⟩ | ⟨-, -, hd⟩ | ⟨-, hd⟩ <;>
    cases hd.symm.trans illegal
  · exact .inr rfl
  · exact .inl rfl

/-- A step that takes FAULT from 0 to 1 pops the head of the host's list, of `DF_OUTQ` or of `PK_OUTQ`,
an illegal word there, and raises its fault: no other effect of a step sets FAULT. -/
theorem step_raises_fault_cases {s u : State} (clear : s.fault = false) (raised : u.fault = true)
    (h : step s = .next u) :
    (∃ t ts r, s.inPort = t :: ts ∧ decodeIn t = .error r ∧
      u = s.popHost.popIn.raiseFault (rejectCause r) t) ∨
    (∃ t ts, s.dfOutq = t :: ts ∧ u = s.popHost.popDfOutq.raiseFault .internalKind t) ∨
    (∃ w ts, s.pkOutq = w :: ts ∧
      u = s.popHost.popPkOutq.raiseFault .internalKind (w.setWidth 10)) := by
  cases step_effect h with
  | inFault t ts r _ offered _ illegal => exact .inl ⟨t, ts, r, offered, illegal, rfl⟩
  | pkFault t ts _ pending => exact .inr (.inl ⟨t, ts, pending, rfl⟩)
  | mpFault w ts _ pending => exact .inr (.inr ⟨w, ts, pending, rfl⟩)
  | _ => simp [clear] at raised

/-- Settles O15: on each of the three links the next state is the pop and then `State.raiseFault`, which
write the fields named and no other. -/
theorem faultingStepIsPrecise : Obligations.FaultingStepIsPrecise := by
  intro s u clear raised h
  rcases step_raises_fault_cases clear raised h with
    ⟨t, ts, r, offered, illegal, rfl⟩ | ⟨t, ts, pending, rfl⟩ | ⟨w, ts, pending, rfl⟩
  · exact ⟨rfl, .inl ⟨by simp [offered], rfl, rfl, rejectCause_of_decodeIn_error illegal⟩⟩
  · exact ⟨rfl, .inr (.inl ⟨by simp [pending], rfl, rfl, rfl⟩)⟩
  · exact ⟨rfl, .inr (.inr ⟨w, by simp [pending], rfl, rfl, rfl, rfl⟩)⟩

/-! ## The faulted block (R162) -/

/-- With FAULT 1 and no reset the block waits: each other row of R80 requires FAULT 0. -/
theorem chosenStep_eq_wait_of_fault {s : State} (faulted : s.fault = true)
    (host : s.host.head? ≠ some .reset) : s.chosenStep = .wait := by
  have guard := chosenStep_guard s
  generalize s.chosenStep = k at guard ⊢
  cases guard with
  | reset asserted => exact absurd asserted host
  | acceptIn t _ _ _ ready => simp [not_inReady_of_fault_or_drain (.inl faulted) t] at ready
  | dfEmit _ _ _ _ ready => simp [dfEmitReady_iff, faulted] at ready
  | emitOut _ _ _ _ ready => simp [mapperReady_iff, faulted] at ready
  | wait => rfl

/-- A step of a faulted block without reset uses up the host's action and changes nothing else. -/
theorem step_of_fault {s : State} (faulted : s.fault = true)
    (host : s.host.head? ≠ some .reset) : step s = .next s.popHost := by
  rw [step, chosenStep_eq_wait_of_fault faulted host]

/-- Settles O16: no word is ready, the step waits, and the reset step clears FAULT. -/
theorem faultedBlockOnlyResets : Obligations.FaultedBlockOnlyResets := by
  intro s faulted
  refine ⟨not_inReady_of_fault_or_drain (.inl faulted), step_of_fault faulted, fun asserted => ?_⟩
  obtain ⟨hs, host⟩ := List.head?_eq_some_iff.mp asserted
  exact ⟨s.popHost.rst, step_of_reset host, rfl⟩

end Sys2Proof.Machine
end

section
/-!
PROOF. The family 70_reset_and_hazards.md: the reset step (R180), and `IN` held closed from `IN.END` to
the END of the message on `OUT` (R185).
-/

namespace Sys2Proof.Machine

/-! ## DRAIN (R185) -/

@[simp] theorem packByte_phase (s : State) (b : Byte) : (s.packByte b).phase = s.phase := by
  rcases packByte_cases s b with ⟨-, hb⟩ | ⟨-, hb⟩ | ⟨-, hb⟩ <;> simp [hb]

@[simp] theorem flushGroup_phase (s : State) : s.flushGroup.phase = s.phase := rfl

/-- PHASE is written only by reset, where a word is ready on `IN`, or by `MP.END`, which enters IDLE and
emits END. -/
theorem step_phase_cases {s u : State} (h : step s = .next u) :
    s.host.head? = some .reset ∨ (∃ t, s.inReady t = true) ∨
    (u.phase = .idle ∧ u.out = s.out ++ [endTok8]) ∨ u.phase = s.phase := by
  cases step_effect h with
  | reset asserted => exact .inl asserted
  | inData _ _ _ _ ready => exact .inr (.inl ⟨_, ready⟩)
  | inEnd _ _ _ ready => exact .inr (.inl ⟨_, ready⟩)
  | inAbort _ _ _ ready => exact .inr (.inl ⟨_, ready⟩)
  | mpEnd => exact .inr (.inr (.inl ⟨rfl, rfl⟩))
  | _ => exact .inr (.inr (.inr (by simp)))

/-- A step in DRAIN takes no token from the host, since it takes only a ready one. -/
theorem step_keeps_inPort_of_drain {s u : State} (draining : s.phase = .drain)
    (h : step s = .next u) : u.inPort = s.inPort := by
  rcases step_inPort_cases h with kept | ⟨t, -, -, -, ready, -⟩
  · exact kept
  · simp [not_inReady_of_fault_or_drain (.inr draining) t] at ready

/-- DRAIN is left, but for reset, only by `MP.END`, since no word is ready on `IN`. -/
theorem step_phase_of_drain {s u : State} (draining : s.phase = .drain)
    (host : s.host.head? ≠ some .reset) (h : step s = .next u) :
    u.phase = .drain ∨ (u.phase = .idle ∧ u.out = s.out ++ [endTok8]) := by
  rcases step_phase_cases h with asserted | ⟨t, ready⟩ | left | kept
  · exact absurd asserted host
  · simp [not_inReady_of_fault_or_drain (.inr draining) t] at ready
  · exact .inr left
  · exact .inl (kept.trans draining)

/-- Settles O11: a step takes only a ready word from `IN`, and in DRAIN there is none; so only `MP.END`
leaves DRAIN, and its word on `OUT` is `0x100`. -/
theorem noInputUntilMessageEnd : Obligations.NoInputUntilMessageEnd :=
  ⟨fun _ _ _ _ => step_inPort_of_not_ready, fun _ _ => step_keeps_inPort_of_drain,
    fun _ _ => step_phase_of_drain⟩

/-! ## The reset step (R180) -/

/-- Settles O19: the next state is `State.rst` of the state with the host's action used up; its registers
hold the values of the table of R34, and it keeps `OUT` and the host's tokens. -/
theorem resetStepRestoresState : Obligations.ResetStepRestoresState := by
  intro s hs asserted
  have next : step s = .next s.popHost.rst := step_of_reset asserted
  refine ⟨s.popHost.rst, next, ?_⟩
  simp

end Sys2Proof.Machine
end

section
/-!
PROOF. The family other, the words: decode against encode and the legal tokens (R64, R66), PACK and the
packer that computes it (R120, R121, R126), and the alphabet of the encoded string (R88, R140, R144).
-/

namespace Sys2Proof.Machine

/-! ## Decode, encode and the legal tokens (R64, R66) -/

/-- The token of every instruction is legal on its link. -/
theorem encode_legal (i : Instr) : (encode i).legal = true := by
  cases i with
  | inData b => exact Laws.EncodeLegal.inData b
  | inEnd => exact Laws.EncodeLegal.inEnd
  | inAbort => exact Laws.EncodeLegal.inAbort
  | pkData b => exact Laws.EncodeLegal.pkData b
  | pkEnd => exact Laws.EncodeLegal.pkEnd
  | mpData k => exact Laws.EncodeLegal.mpData k
  | mpEnd => exact Laws.EncodeLegal.mpEnd

/-- The words of kind DATA of a `TOK8` are the range `0x000..0x0FF` of R64. -/
theorem kind8_eq_kindData_iff (t : Tok8) : kind8 t = kindData ↔ t.toNat ≤ 0x0FF := by
  have zero : kindData.toNat = 0 := rfl
  rw [kind8_eq_iff, zero]
  omega

theorem legalOnIn_iff (t : Tok8) :
    legalOnIn t = true ↔ kind8 t = kindData ∨ t = endTok8 ∨ t = abortTok8 := by
  rw [kind8_eq_kindData_iff, legalOnIn, Bool.or_eq_true, Bool.or_eq_true, or_assoc,
    decide_eq_true_iff, beq_iff_eq, beq_iff_eq]
  rfl

theorem legalOnDf2pk_iff (t : Tok8) :
    legalOnDf2pk t = true ↔ kind8 t = kindData ∨ t = endTok8 := by
  rw [kind8_eq_kindData_iff, legalOnDf2pk, Bool.or_eq_true, decide_eq_true_iff, beq_iff_eq]
  rfl

theorem legalOnPk2mp_iff (t : Tok6) :
    legalOnPk2mp t = true ↔ kind6 t = kindData ∨ t = endTok6 := by
  rw [kind6_eq_kindData_iff, legalOnPk2mp, Bool.or_eq_true, decide_eq_true_iff, beq_iff_eq]
  rfl

/-- A legal word of a link selects one of the link's rows. -/
theorem decode_ok_of_legal {w : LinkToken} (legal : w.legal = true) : ∃ i, decode w = .ok i := by
  cases w with
  | onIn t =>
    rcases (legalOnIn_iff t).mp legal with kind | word | word
    · exact ⟨_, (decode_onIn_data_iff t).mpr kind⟩
    · exact ⟨_, (decode_onIn_end_iff t).mpr word⟩
    · exact ⟨_, (decode_onIn_abort_iff t).mpr word⟩
  | onDf2pk t =>
    rcases (legalOnDf2pk_iff t).mp legal with kind | word
    · exact ⟨_, (decode_onDf2pk_data_iff t).mpr kind⟩
    · exact ⟨_, (decode_onDf2pk_end_iff t).mpr word⟩
  | onPk2mp t =>
    rcases (legalOnPk2mp_iff t).mp legal with kind | word
    · exact ⟨_, (decode_onPk2mp_data_iff t).mpr kind⟩
    · exact ⟨_, (decode_onPk2mp_end_iff t).mpr word⟩

/-- Settles O4: a word decodes exactly to the instruction it is the token of, and tokens of instructions
are the legal words. -/
theorem decodeEncodeAgree : Obligations.DecodeEncodeAgree := by
  refine ⟨decode_encode, fun w i h => (eq_encode_of_decode h).symm, fun w => ⟨decode_ok_of_legal, ?_⟩⟩
  rintro ⟨i, h⟩
  rw [eq_encode_of_decode h]
  exact encode_legal i

/-- Settles O3: each sample word is the token of its instruction, which the decoder reads back. -/
theorem sampleWordsDecode : Obligations.SampleWordsDecode :=
  ⟨decode_encode (.inData 0x41#8), decode_encode .inEnd, decode_encode .inAbort,
    decode_encode (.pkData 0x73#8), decode_encode .pkEnd, decode_encode (.mpData 48#6),
    decode_encode .mpEnd⟩

/-! ## GROUP in arithmetic (R121) -/

/-- Masking with `n` low ones is the remainder by `2 ^ n`: the slice's value in the arithmetic form. -/
theorem extractLsb'_zero_toNat_eq_and {w : Nat} (x : BitVec w) (n : Nat) :
    (x.extractLsb' 0 n).toNat = x.toNat &&& (2 ^ n - 1) := by
  rw [BitVec.extractLsb'_toNat, Nat.shiftRight_zero, Nat.and_two_pow_sub_one_eq_mod]

/-- The top bits of a word, as a slice and as a shift. -/
theorem extractLsb'_high_toNat_eq_shiftRight {w m n : Nat} (x : BitVec w)
    (width : w = m + n) :
    (x.extractLsb' n m).toNat = x.toNat >>> n := by
  subst width
  rw [BitVec.extractLsb'_toNat, Nat.mod_eq_of_lt]
  rw [Nat.shiftRight_eq_div_pow, Nat.div_lt_iff_lt_mul (Nat.two_pow_pos n), ← Nat.pow_add]
  exact x.isLt

/-- A word of 24 bits is its four slices of 6 bits, joined. -/
theorem append_slices6 (x : BitVec 24) :
    x.extractLsb' 18 6 ++ x.extractLsb' 12 6 ++ x.extractLsb' 6 6 ++ x.extractLsb' 0 6 = x := by
  rw [BitVec.extractLsb'_append_extractLsb'_eq_extractLsb' (by rfl),
    BitVec.extractLsb'_append_extractLsb'_eq_extractLsb' (by rfl)]
  exact BitVec.extractLsb'_append_extractLsb'

/-- Settles O23: the codes are the 6-bit slices of the joined bytes (R121's layout, O22), and each slice
of a byte is a shift or a mask. -/
theorem groupInArithmetic : Obligations.GroupInArithmetic := by
  intro b1 b2 b3
  obtain ⟨c1, c2, c3, c4, codes, s1, s2, s3, s4, w1, w2, w3, w4⟩ := groupLayout b1 b2 b3
  refine ⟨c1, c2, c3, c4, codes, ?joined, ?c1, ?c2, ?c3, ?c4⟩
  case joined => rw [← w1, ← w2, ← w3, ← w4]; exact (append_slices6 _).symm
  case c1 => rw [s1]; exact extractLsb'_high_toNat_eq_shiftRight b1 rfl
  case c2 =>
    rw [s2, BitVec.toNat_append, extractLsb'_zero_toNat_eq_and,
      extractLsb'_high_toNat_eq_shiftRight b2 (m := 4) (n := 4) rfl]
    rfl
  case c3 =>
    rw [s3, BitVec.toNat_append, extractLsb'_zero_toNat_eq_and,
      extractLsb'_high_toNat_eq_shiftRight b3 (m := 2) (n := 6) rfl]
    rfl
  case c4 => rw [s4]; exact extractLsb'_zero_toNat_eq_and b3 6

/-! ## PACK (R120) -/

@[simp] theorem ceilDiv3_add_three (n : Nat) : ceilDiv3 (n + 3) = ceilDiv3 n + 1 := by
  unfold ceilDiv3
  omega

@[simp] theorem pack_nil : pack [] = [] := rfl

theorem pack_one (b1 : Byte) : pack [b1] = group b1 0x00#8 0x00#8 := by
  simp [pack, ceilDiv3, byteAt]

theorem pack_two (b1 b2 : Byte) : pack [b1, b2] = group b1 b2 0x00#8 := by
  simp [pack, ceilDiv3, byteAt]

/-- The first group of PACK is that of the first three bytes, and the group at `j + 1` is the group at
`j` of the rest. -/
theorem pack_cons_three (b1 b2 b3 : Byte) (c : List Byte) :
    pack (b1 :: b2 :: b3 :: c) = group b1 b2 b3 ++ pack c := by
  have count : ceilDiv3 (b1 :: b2 :: b3 :: c).length = ceilDiv3 c.length + 1 :=
    ceilDiv3_add_three c.length
  rw [pack, count, List.range_succ_eq_map, List.flatMap_cons, List.flatMap_map]
  rfl

/-- Settles O29, by the three short forms and the step by a whole group. -/
theorem packGroupByGroup : Obligations.PackGroupByGroup :=
  ⟨pack_nil, pack_one, pack_two, pack_cons_three⟩

@[simp] theorem pack_length (c : List Byte) : (pack c).length = 4 * ceilDiv3 c.length := by
  simp [pack, List.length_flatMap, Nat.mul_comm]

/-! ## The packer computes PACK (R126) -/

theorem heldBytes_of_pkCnt_zero {s : State} (cnt : s.pkCnt = 0) : s.heldBytes = [] := by
  simp [State.heldBytes, cnt]

/-- A byte either joins the held bytes, or completes a group, which is queued. -/
theorem packByte_held_cases (s : State) (b : Byte) :
    ((s.packByte b).heldBytes = s.heldBytes ++ [b] ∧ (s.packByte b).pkOutq = s.pkOutq) ∨
    (∃ b1 b2, s.heldBytes = [b1, b2] ∧ (s.packByte b).heldBytes = [] ∧
      (s.packByte b).pkOutq = (group b1 b2 b).map dataTok6) := by
  rcases packByte_cases s b with ⟨cnt, hb⟩ | ⟨cnt, hb⟩ | ⟨cnt, hb⟩ <;> rw [hb]
  · exact .inl ⟨by simp [State.heldBytes, cnt], rfl⟩
  · exact .inl ⟨by simp [State.heldBytes, cnt], rfl⟩
  · exact .inr ⟨s.pkB1, s.pkB2, by simp [State.heldBytes, cnt], rfl, rfl⟩

/-- What the packer queues for a byte is a part of PACK: followed by PACK of what is then held and of
any rest, it is PACK of what was held, the byte and the rest. -/
theorem packByte_pack {s : State} (queue : s.pkOutq = []) (b : Byte) :
    ∃ ks, (s.packByte b).pkOutq = ks.map dataTok6 ∧ ks.length ≤ 4 ∧
      ∀ c, ks ++ pack ((s.packByte b).heldBytes ++ c) = pack (s.heldBytes ++ b :: c) := by
  rcases packByte_held_cases s b with ⟨held, kept⟩ | ⟨b1, b2, held, empty, queued⟩
  · exact ⟨[], by rw [kept, queue]; rfl, Nat.zero_le _, fun c => by simp [held]⟩
  · refine ⟨group b1 b2 b, queued, by simp, fun c => ?_⟩
    rw [held, empty]
    exact (pack_cons_three b1 b2 b c).symm

@[simp] theorem flushGroup_pkOutq (s : State) :
    s.flushGroup.pkOutq = (pack s.heldBytes).map dataTok6 ++ [endTok6] := by
  rw [← partialGroup_eq_pack]
  rfl

@[simp] theorem flushGroup_heldBytes (s : State) : s.flushGroup.heldBytes = [] := rfl

/-- A byte changes the packer's registers and queue alone, so clearing them undoes it. -/
theorem packByte_clear (s : State) (b : Byte) :
    { s.packByte b with pkOutq := [], pkCnt := 0, pkB1 := 0x00#8, pkB2 := 0x00#8 } =
      { s with pkOutq := [], pkCnt := 0, pkB1 := 0x00#8, pkB2 := 0x00#8 } := by
  rcases packByte_cases s b with ⟨-, hb⟩ | ⟨-, hb⟩ | ⟨-, hb⟩ <;> rw [hb] <;> rfl

/-- R126 from a group already begun: the packer queues PACK of the held bytes and `c`, and END. -/
theorem drivePacker_eq_pack (c : List Byte) {s : State} (fault : s.fault = false)
    (queue : s.pkOutq = []) :
    drivePacker (c.map .pkData ++ [.pkEnd]) s =
      some ((pack (s.heldBytes ++ c)).map dataTok6 ++ [endTok6],
        { s with pkOutq := [], pkCnt := 0, pkB1 := 0x00#8, pkB2 := 0x00#8 }) := by
  induction c generalizing s with
  | nil =>
    have run := exec_pkEnd_of_ready fault queue
    simp only [List.map_nil, List.nil_append, drivePacker, run, flushGroup_pkOutq, Option.map_some,
      List.append_nil]
    rfl
  | cons b c ih =>
    have run := exec_pkData_of_ready fault queue b
    obtain ⟨ks, queued, -, packed⟩ := packByte_pack queue b
    have taken := ih (s := { s.packByte b with pkOutq := [] }) ((packByte_fault s b).trans fault) rfl
    have held : State.heldBytes { s.packByte b with pkOutq := [] } = (s.packByte b).heldBytes := rfl
    simp only [List.map_cons, List.cons_append, drivePacker, run, taken, held, queued, Option.map_some,
      packByte_clear, ← packed, List.map_append, List.append_assoc]

/-- Settles O30: the empty group holds no byte. -/
theorem packerComputesPack : Obligations.PackerComputesPack := by
  intro s c fault cnt queue
  have driven := drivePacker_eq_pack c fault queue
  rw [heldBytes_of_pkCnt_zero cnt, List.nil_append] at driven
  simp only [queue]
  exact driven

/-! ## The alphabet (R140, R144) -/

/-- Settles O32: a table of 64 rows, checked row by row. -/
theorem alphabetClosedForm : Obligations.AlphabetClosedForm := by
  unfold Obligations.AlphabetClosedForm
  decide

theorem alphabet_nodup : alphabet.Nodup := by decide

theorem alphabet_codes_nodup : (alphabet.map fun c => BitVec.ofNat 8 c.toNat).Nodup := by decide

/-- Codes whose entries in a table without repetition are equal are equal. -/
theorem code_eq_of_getElem?_eq {α : Type} {table : List α} (nodup : table.Nodup)
    (length : table.length = 2 ^ 6) {j k : Code} (same : table[j.toNat]? = table[k.toNat]?) :
    j = k :=
  BitVec.eq_of_toNat_eq ((List.getElem?_inj (length ▸ j.isLt) nodup).mp same)

/-- Settles O33: neither the characters nor their codes repeat in the table. -/
theorem alphabetIsInjective : Obligations.AlphabetIsInjective := by
  refine fun j k => ⟨fun same => ?char, fun same => ?code⟩
  case char =>
    refine code_eq_of_getElem?_eq alphabet_nodup alphabet_length ?_
    rw [alphabet_getElem?, alphabet_getElem?, same]
  case code =>
    refine code_eq_of_getElem?_eq alphabet_codes_nodup ?_ ?_
    · rw [List.length_map, alphabet_length]
    · rw [alphabet_map_getElem?, alphabet_map_getElem?, same]

/-! ## The encoded string (R88) -/

theorem alpha_mem_alphabet (k : Code) : alpha k ∈ alphabet := List.getElem_mem _

/-- The characters a message's DATA tokens carry are those of the string. -/
theorem characterTokens_eq_map_mapSeq (c : List Byte) : characterTokens c =
    (mapSeq (pack c)).map fun ch => dataTok8 (BitVec.ofNat 8 ch.toNat) := by
  rw [mapSeq, List.map_map]
  rfl

@[simp] theorem characterTokens_length (c : List Byte) :
    (characterTokens c).length = 4 * ceilDiv3 c.length := by
  simp [characterTokens]

theorem legalOnOut_endTok8 : legalOnOut endTok8 = true := rfl

theorem legalOnOut_dataTok8_of_mem {ch : Char} (mem : ch ∈ alphabet) :
    legalOnOut (dataTok8 (BitVec.ofNat 8 ch.toNat)) = true := by
  rw [legalOnOut, Bool.or_eq_true, List.contains_iff_mem]
  exact .inr (List.mem_map_of_mem mem)

/-- Settles O41: four codes a group, each character an entry of the alphabet, and each DATA token the word
of a character's code. -/
theorem outputLengthAndAlphabet : Obligations.OutputLengthAndAlphabet := by
  intro p
  have length : (encodePayload p).length = 4 * ceilDiv3 (Config.deflateFn p).length := by
    rw [encodePayload, mapSeq, List.length_map, pack_length]
  have inAlphabet : ∀ ch ∈ encodePayload p, ch ∈ alphabet := by
    intro ch mem
    obtain ⟨k, -, rfl⟩ := List.mem_map.mp mem
    exact alpha_mem_alphabet k
  have tokens : messageTokens p =
      (encodePayload p).map (fun ch => dataTok8 (BitVec.ofNat 8 ch.toNat)) ++ [endTok8] := by
    rw [messageTokens, characterTokens_eq_map_mapSeq, encodePayload]
  refine ⟨length, by omega, inAlphabet, tokens, fun t mem => ?legal⟩
  case legal =>
    rw [tokens, List.mem_append, List.mem_map, List.mem_singleton] at mem
    rcases mem with ⟨ch, char, rfl⟩ | rfl
    · exact legalOnOut_dataTok8_of_mem (inAlphabet ch char)
    · exact legalOnOut_endTok8

end Sys2Proof.Machine
end

section
/-!
PROOF. The family other, the step: it always answers, it runs the decoded token or raises its fault (R80,
R69), a token waits where its link would not take it, and what no step changes.
-/

namespace Sys2Proof.Machine

/-! ## What the packer's writes leave unchanged (R122, R123) -/

/-- The packer's write for a byte is to its own registers and queue. -/
theorem packByte_frame (s : State) (b : Byte) : s.packByte b =
    { s with
      pkCnt := (s.packByte b).pkCnt, pkB1 := (s.packByte b).pkB1, pkB2 := (s.packByte b).pkB2
      pkOutq := (s.packByte b).pkOutq } := by
  rcases packByte_cases s b with ⟨-, hb⟩ | ⟨-, hb⟩ | ⟨-, hb⟩ <;> rw [hb] <;> rfl

section
variable (s : State) (b : Byte)

@[simp] theorem packByte_faultCause : (s.packByte b).faultCause = s.faultCause := by
  rw [packByte_frame]
@[simp] theorem packByte_faultToken : (s.packByte b).faultToken = s.faultToken := by
  rw [packByte_frame]
@[simp] theorem packByte_dfBuf : (s.packByte b).dfBuf = s.dfBuf := by
  rw [packByte_frame]
@[simp] theorem packByte_dfOutq : (s.packByte b).dfOutq = s.dfOutq := by
  rw [packByte_frame]
@[simp] theorem packByte_out : (s.packByte b).out = s.out := by
  rw [packByte_frame]
@[simp] theorem packByte_maxPayload : (s.packByte b).maxPayload = s.maxPayload := by
  rw [packByte_frame]

@[simp] theorem flushGroup_faultCause : s.flushGroup.faultCause = s.faultCause := rfl
@[simp] theorem flushGroup_faultToken : s.flushGroup.faultToken = s.faultToken := rfl
@[simp] theorem flushGroup_dfBuf : s.flushGroup.dfBuf = s.dfBuf := rfl
@[simp] theorem flushGroup_dfOutq : s.flushGroup.dfOutq = s.dfOutq := rfl
@[simp] theorem flushGroup_pkCnt : s.flushGroup.pkCnt = 0 := rfl
@[simp] theorem flushGroup_out : s.flushGroup.out = s.out := rfl
@[simp] theorem flushGroup_maxPayload : s.flushGroup.maxPayload = s.maxPayload := rfl

end

/-! ## The fault fields and the instructions (R89) -/

/-- Settles O18: each instruction's next state is one of its named writes or the state itself, and none of
them writes a fault field. -/
theorem legalTokensNeverFault : Obligations.LegalTokensNeverFault := by
  intro i s t h
  cases i with
  | inData b => rcases execInData_cases h with ⟨-, rfl⟩ | ⟨-, rfl⟩ <;> simp
  | inEnd => rcases execInEnd_cases h with ⟨-, rfl⟩ | ⟨-, rfl⟩ <;> simp
  | inAbort => rcases execInAbort_cases h with ⟨-, rfl⟩ | ⟨-, rfl⟩ <;> simp
  | pkData b => rcases execPkData_cases h with ⟨-, rfl⟩ | ⟨-, rfl⟩ <;> simp
  | pkEnd => rcases execPkEnd_cases h with ⟨-, rfl⟩ | ⟨-, rfl⟩ <;> simp
  | mpData k => rcases execMpData_cases h with ⟨-, rfl⟩ | ⟨-, rfl⟩ <;> simp
  | mpEnd => rcases execMpEnd_cases h with ⟨-, rfl⟩ | ⟨-, rfl⟩ <;> simp

/-! ## A token that is not taken (log 7) -/

/-- Settles O26: each operation is guarded by its link's readiness and is the same state elsewhere. -/
theorem tokensWaitWhereNotReady : Obligations.TokensWaitWhereNotReady := by
  intro s
  refine ⟨fun b unready => if_neg (Bool.eq_false_iff.mp unready),
    fun unready => if_neg (Bool.eq_false_iff.mp unready),
    fun unready => if_neg (Bool.eq_false_iff.mp unready), fun closed => ?packer, fun faulted => ?mapper⟩
  case packer =>
    have unready : ¬s.packerReady = true := by
      rw [packerReady_iff]
      rintro ⟨fault, queue⟩
      simp [fault, queue] at closed
    exact ⟨if_neg unready, fun b => if_neg unready⟩
  case mapper =>
    have unready : ¬s.mapperReady = true := by simp [mapperReady_iff, faulted]
    exact ⟨if_neg unready, fun k => if_neg unready⟩

/-! ## Every step answers (log 12) -/

theorem exists_next_of_ite {c : Prop} [Decidable c] (a b : State) :
    ∃ t, (if c then .next a else .next b : Host.Outcome State Fault Refusal) = .next t := by
  split
  · exact ⟨a, rfl⟩
  · exact ⟨b, rfl⟩

theorem exec_answers_next (i : Instr) (s : State) : ∃ t, exec i s = .next t := by
  cases i <;> exact exists_next_of_ite _ _

theorem runToken_answers_next (lt : LinkToken) (s : State) : ∃ t, runToken lt s = .next t := by
  cases h : decode lt with
  | ok i => rw [runToken_ok h]; exact exec_answers_next i s
  | error r => exact ⟨_, runToken_error h s⟩

/-- Settles O6: reset and the wait answer a state, and the other steps run a token. -/
theorem stepAlwaysAnswersNext : Obligations.StepAlwaysAnswersNext := by
  intro s
  unfold step
  cases s.chosenStep with
  | reset => exact ⟨_, rfl⟩
  | acceptIn t => exact runToken_answers_next _ _
  | dfEmit t => exact runToken_answers_next _ _
  | emitOut t => exact runToken_answers_next _ _
  | wait => exact ⟨_, rfl⟩

/-! ## The step with a token (R80, R69) -/

/-- Settles O5: each of the three rows takes the token off its link and runs it, and a token that decodes
is run by `exec`. -/
theorem stepRunsDecodedToken : Obligations.StepRunsDecodedToken := by
  refine ⟨?accept, ?dfEmit, ?out⟩
  case accept =>
    intro s hs t ts i host offered ready decoded
    rw [step_of_offer host offered ready, runToken_ok decoded]
  case dfEmit =>
    intro s t ts i fault draining queue pending host decoded
    have ready := (dfEmitReady_iff s).mpr ⟨fault, draining, queue⟩
    rw [step_of_dfEmit ready pending host, runToken_ok decoded]
  case out =>
    intro s hs t ts i host fault pending decoded
    rw [step_of_take host pending ((mapperReady_iff s).mpr fault), runToken_ok decoded]

/-- A word of `DF2PK` that is neither DATA nor END is illegal there. -/
theorem decode_onDf2pk_of_illegal {t : Tok8} (notData : 0x0FF < t.toNat) (notEnd : t ≠ endTok8) :
    decode (.onDf2pk t) = .error .internalKind := by
  rcases decodeDf2pk_cases t with ⟨kind, -⟩ | ⟨word, -⟩ | ⟨-, -, hd⟩
  · exact absurd ((kind8_eq_kindData_iff t).mp kind) (Nat.not_le.mpr notData)
  · exact absurd word notEnd
  · exact hd

/-- A word of `PK2MP` that is neither DATA nor END is illegal there. -/
theorem decode_onPk2mp_of_illegal {t : Tok6} (notData : 0x3F < t.toNat) (notEnd : t ≠ endTok6) :
    decode (.onPk2mp t) = .error .internalKind := by
  rcases decodePk2mp_cases t with ⟨kind, -⟩ | ⟨word, -⟩ | ⟨-, -, hd⟩
  · exact absurd ((kind6_eq_kindData_iff t).mp kind) (Nat.not_le.mpr notData)
  · exact absurd word notEnd
  · exact hd

/-- Settles O14: the step pops the word and runs it, and an illegal word raises its fault. -/
theorem illegalInternalTokenRaisesFault : Obligations.IllegalInternalTokenRaisesFault := by
  refine ⟨?df2pk, ?pk2mp⟩
  case df2pk =>
    intro s t ts fault draining queue pending host notData notEnd
    have ready := (dfEmitReady_iff s).mpr ⟨fault, draining, queue⟩
    rw [step_of_dfEmit ready pending host, runToken_error (decode_onDf2pk_of_illegal notData notEnd)]
    rfl
  case pk2mp =>
    intro s hs t ts host fault pending notData notEnd
    have ready := (mapperReady_iff s).mpr fault
    rw [step_of_take host pending ready, runToken_error (decode_onPk2mp_of_illegal notData notEnd)]
    rfl

/-! ## What every step keeps (log 5) -/

/-- Settles O48: none of the effects of a step writes `MAX_PAYLOAD`. -/
theorem capacityIsFixed : Obligations.CapacityIsFixed := by
  intro s u h
  cases step_effect h <;> simp

/-! ## Power-on and reset (R182) -/

/-- At power-on and after a reset step the state is a `State.rst`. -/
theorem exists_eq_rst {u : State}
    (h : (∃ capacity tokens actions, u = State.powerOn capacity tokens actions) ∨
      ∃ (s : State) (hs : List HostAction), s.host = .reset :: hs ∧ step s = .next u) :
    ∃ v : State, u = v.rst := by
  rcases h with ⟨capacity, tokens, actions, rfl⟩ | ⟨s, hs, asserted, h⟩
  · exact ⟨_, (rst_powerOn capacity tokens actions).symm⟩
  · rw [step_of_reset asserted] at h
    cases h
    exact ⟨_, rfl⟩

/-- Settles O12: a block in reset is in IDLE with FAULT 0 and an empty payload buffer, which is full only
with capacity 0. -/
theorem powerOnAcceptsInput : Obligations.PowerOnAcceptsInput := by
  intro u h
  obtain ⟨v, rfl⟩ := exists_eq_rst h
  have notDrain : v.rst.phase ≠ .drain := by simp
  refine ⟨(inReady_endTok8_iff _).mpr ⟨rfl, notDrain⟩, (inReady_abortTok8_iff _).mpr ⟨rfl, notDrain⟩,
    fun b => ?data, ?status⟩
  case data =>
    have ready := inReady_dataTok8_iff v.rst b
    rwa [and_iff_right (State.rst_fault v), and_iff_right notDrain] at ready
  case status => exact (by decide : State.reset.status = 0x0000#16)

/-! ## Runs without reset, and the faulted block (R162) -/

theorem host_head?_ne_reset_of_noReset {n : Nat} {s : State} (h : noReset (n + 1) s) :
    s.host.head? ≠ some .reset := by
  intro asserted
  obtain ⟨hs, host⟩ := List.head?_eq_some_iff.mp asserted
  simp [noReset, host] at h

theorem noReset_of_step {n : Nat} {s u : State} (h : noReset (n + 1) s) (next : step s = .next u) :
    noReset n u := by
  unfold noReset at h ⊢
  rw [step_host next]
  cases hosts : s.host with
  | nil => simp
  | cons a hs => simp_all

/-- A faulted block waits through a run without reset. -/
theorem run_of_fault {n : Nat} {s : State} (faulted : s.fault = true) (quiet : noReset n s) :
    run n s = .next { s with host := s.host.drop n } := by
  induction n generalizing s with
  | zero => rfl
  | succ n ih =>
    have waits := step_of_fault faulted (host_head?_ne_reset_of_noReset quiet)
    rw [run_succ_of_step waits, ih (s := s.popHost) faulted (noReset_of_step quiet waits),
      State.popHost_host, List.drop_tail]
    rfl

/-- Settles O17, by induction over the run: each step only uses up the host's action. -/
theorem firstFaultIsKept : Obligations.FirstFaultIsKept := by
  intro n s t faulted quiet h
  rw [run_of_fault faulted quiet] at h
  cases h
  rfl

end Sys2Proof.Machine
end

section
/-!
PROOF. The family other, the invariant (R33): its shape by PHASE, what a step can do from a state that
meets it, that every step keeps it, and what follows for the reachable states and for the tokens owed to
the host (R86, R105, R160).
-/

namespace Sys2Proof.Machine

/-! ## The streams on the internal links (R26, R29) -/

@[simp] theorem compressedTokens_nil : compressedTokens [] = [endTok8] := rfl

@[simp] theorem compressedTokens_cons (b : Byte) (c : List Byte) :
    compressedTokens (b :: c) = dataTok8 b :: compressedTokens c := rfl

theorem compressedTokens_ne_nil (c : List Byte) : compressedTokens c ≠ [] := by
  simp [compressedTokens]

theorem dataTok8_inj {b b' : Byte} (h : dataTok8 b = dataTok8 b') : b = b' := by
  rw [← data8_dataTok8 b, h, data8_dataTok8]

/-- The head of a stream still to be finished is its first byte's word, or END where no byte is left. -/
theorem compressedTokens_eq_cons {c : List Byte} {t : Tok8} {ts : List Tok8}
    (h : compressedTokens c = t :: ts) :
    (∃ b c', c = b :: c' ∧ t = dataTok8 b ∧ ts = compressedTokens c') ∨
    (c = [] ∧ t = endTok8 ∧ ts = []) := by
  cases c with
  | nil =>
    obtain ⟨rfl, rfl⟩ := List.cons.inj h
    exact .inr ⟨rfl, rfl, rfl⟩
  | cons b c' =>
    obtain ⟨rfl, rfl⟩ := List.cons.inj h
    exact .inl ⟨b, c', rfl, rfl, rfl⟩

theorem endTok8_not_mem_map_dataTok8 (c : List Byte) : endTok8 ∉ c.map dataTok8 := by
  simp

theorem endTok6_not_mem_map_dataTok6 (ks : List Code) : endTok6 ∉ ks.map dataTok6 := by
  simp

/-- The streams of `DF_OUTQ` that the invariant admits are those that compressing fills it with, less a
part already taken. -/
theorem dataThenEnd8_iff (q : List Tok8) : dataThenEnd8 q = true ↔ ∃ c, q = compressedTokens c := by
  constructor
  · intro h
    induction q with
    | nil => simp [dataThenEnd8] at h
    | cons t ts ih =>
      rw [dataThenEnd8] at h
      split at h
      next word => exact ⟨[], by simp_all⟩
      next =>
        obtain ⟨kind, rest⟩ := (Bool.and_eq_true _ _).mp h
        obtain ⟨c, rfl⟩ := ih rest
        exact ⟨data8 t :: c, by rw [compressedTokens_cons, dataTok8_data8 (beq_iff_eq.mp kind)]⟩
  · rintro ⟨c, rfl⟩
    induction c with
    | nil => simp [dataThenEnd8]
    | cons b c ih => simp [dataThenEnd8, ih]

theorem onlyData6_iff (q : List Tok6) : onlyData6 q = true ↔ ∃ ks : List Code, q = ks.map dataTok6 := by
  constructor
  · intro h
    refine ⟨q.map data6, ?_⟩
    have words : ∀ t ∈ q, (dataTok6 ∘ data6) t = id t := fun t mem =>
      dataTok6_data6 (beq_iff_eq.mp (List.all_eq_true.mp h t mem))
    rw [List.map_map, List.map_congr_left words, List.map_id]
  · rintro ⟨ks, rfl⟩
    simp [onlyData6]

theorem dataThenEnd6_iff (q : List Tok6) :
    dataThenEnd6 q = true ↔ ∃ ks : List Code, q = ks.map dataTok6 ++ [endTok6] := by
  constructor
  · intro h
    induction q with
    | nil => simp [dataThenEnd6] at h
    | cons t ts ih =>
      rw [dataThenEnd6] at h
      split at h
      next word => exact ⟨[], by simp_all⟩
      next =>
        obtain ⟨kind, rest⟩ := (Bool.and_eq_true _ _).mp h
        obtain ⟨ks, rfl⟩ := ih rest
        exact ⟨data6 t :: ks, by simp [dataTok6_data6 (beq_iff_eq.mp kind)]⟩
  · rintro ⟨ks, rfl⟩
    induction ks with
    | nil => simp [dataThenEnd6]
    | cons k ks ih => simp_all [dataThenEnd6]

/-! ## The invariant, by PHASE -/

theorem heldBytes_length_le (s : State) : s.heldBytes.length ≤ 2 := by
  rcases heldBytes_cases s with ⟨-, hb⟩ | ⟨-, hb⟩ | ⟨-, hb⟩ <;> simp [hb]

theorem length_codes_then_end (ks : List Code) :
    (ks.map dataTok6 ++ [endTok6]).length = ks.length + 1 := by
  simp

/-- `DF_BUF` is no longer than the capacity (R25). -/
def State.BufferFits (s : State) : Prop := ∀ m, s.maxPayload = some m → s.dfBuf.length ≤ m

/-- The payload buffer and the queues by PHASE (R33): empty in IDLE, a payload in RECV, and in DRAIN
a stream still being packed, or one whose END has reached `PK_OUTQ`. -/
inductive State.PhaseShape (s : State) : Prop where
  | idle (phase : s.phase = .idle) (payload : s.dfBuf = []) (empty : s.QueuesEmpty)
  | recv (phase : s.phase = .recv) (payload : s.dfBuf ≠ []) (empty : s.QueuesEmpty)
  | packing (phase : s.phase = .drain) (payload : s.dfBuf = []) (c : List Byte) (ks : List Code)
      (stream : s.dfOutq = compressedTokens c) (queue : s.pkOutq = ks.map dataTok6)
      (bound : ks.length ≤ 4)
  | flushed (phase : s.phase = .drain) (payload : s.dfBuf = []) (ks : List Code)
      (stream : s.dfOutq = []) (cnt : s.pkCnt = 0) (queue : s.pkOutq = ks.map dataTok6 ++ [endTok6])
      (bound : ks.length ≤ 4)

/-- The lines of the invariant about PHASE say that the state has one of the four shapes. -/
theorem phaseShape_iff (s : State) : s.PhaseShape ↔
    (s.phase = .idle → s.dfBuf = [] ∧ s.QueuesEmpty) ∧
    (s.phase = .recv → s.dfBuf ≠ [] ∧ s.QueuesEmpty) ∧
    (s.phase = .drain → s.dfBuf = [] ∧ s.Draining) := by
  constructor
  · rintro (⟨phase, payload, empty⟩ | ⟨phase, payload, empty⟩ |
      ⟨phase, payload, c, ks, stream, queue, bound⟩ | ⟨phase, payload, ks, stream, cnt, queue, bound⟩)
    · exact ⟨fun _ => ⟨payload, empty⟩, by simp [phase], by simp [phase]⟩
    · exact ⟨by simp [phase], fun _ => ⟨payload, empty⟩, by simp [phase]⟩
    · refine ⟨by simp [phase], by simp [phase], fun _ => ⟨payload, .inl ⟨?_, ?_, ?_⟩⟩⟩
      · exact (dataThenEnd8_iff _).mpr ⟨c, stream⟩
      · exact (onlyData6_iff _).mpr ⟨ks, queue⟩
      · simpa [queue] using bound
    · refine ⟨by simp [phase], by simp [phase], fun _ => ⟨payload, .inr ⟨stream, cnt, ?_, ?_⟩⟩⟩
      · exact (dataThenEnd6_iff _).mpr ⟨ks, queue⟩
      · simpa only [queue, length_codes_then_end] using Nat.succ_le_succ bound
  · rintro ⟨idle, recv, drain⟩
    cases phase : s.phase with
    | idle => exact .idle phase (idle phase).1 (idle phase).2
    | recv => exact .recv phase (recv phase).1 (recv phase).2
    | drain =>
      obtain ⟨payload, ⟨stream, queue, bound⟩ | ⟨stream, cnt, queue, bound⟩⟩ := drain phase
      · obtain ⟨c, stream⟩ := (dataThenEnd8_iff _).mp stream
        obtain ⟨ks, queue⟩ := (onlyData6_iff _).mp queue
        exact .packing phase payload c ks stream queue (by simpa [queue] using bound)
      · obtain ⟨ks, queue⟩ := (dataThenEnd6_iff _).mp queue
        rw [queue, length_codes_then_end] at bound
        exact .flushed phase payload ks stream cnt queue (Nat.le_of_succ_le_succ bound)

/-- The invariant in its four parts, each kept by every step for a reason of its own. -/
theorem inv_iff (s : State) :
    s.Inv ↔ s.FaultFieldsAgree ∧ s.BufferFits ∧ s.UnheldBytesZero ∧ s.PhaseShape := by
  have fits : (s.maxPayload.all fun m => decide (s.dfBuf.length ≤ m)) = true ↔ s.BufferFits := by
    cases capacity : s.maxPayload <;> simp [State.BufferFits, capacity]
  constructor
  · rintro ⟨fault, buffer, none, one, phases⟩
    exact ⟨fault, fits.mp buffer, ⟨none, one⟩, (phaseShape_iff s).mpr phases⟩
  · rintro ⟨fault, buffer, ⟨none, one⟩, shape⟩
    exact ⟨fault, fits.mpr buffer, none, one, (phaseShape_iff s).mp shape⟩

section
variable {s : State}

theorem State.Inv.faultFields (hs : s.Inv) : s.FaultFieldsAgree := ((inv_iff s).mp hs).1
theorem State.Inv.bufferFits (hs : s.Inv) : s.BufferFits := ((inv_iff s).mp hs).2.1
theorem State.Inv.unheldBytes (hs : s.Inv) : s.UnheldBytesZero := ((inv_iff s).mp hs).2.2.1
theorem State.Inv.shape (hs : s.Inv) : s.PhaseShape := ((inv_iff s).mp hs).2.2.2

/-- Outside DRAIN the queues and the group are empty. -/
theorem State.PhaseShape.queuesEmpty (hs : s.PhaseShape) (phase : s.phase ≠ .drain) :
    s.QueuesEmpty := by
  cases hs with
  | idle _ _ empty => exact empty
  | recv _ _ empty => exact empty
  | packing draining => exact absurd draining phase
  | flushed draining => exact absurd draining phase

theorem State.PhaseShape.dfBuf_of_drain (hs : s.PhaseShape) (draining : s.phase = .drain) :
    s.dfBuf = [] :=
  (((phaseShape_iff s).mp hs).2.2 draining).1

/-- A token in `PK_OUTQ` is a code's word with the rest of the message behind it, or END with nothing
behind it. -/
theorem State.PhaseShape.pkOutq_cons (hs : s.PhaseShape) {t : Tok6} {ts : List Tok6}
    (pending : s.pkOutq = t :: ts) : s.phase = .drain ∧
    ((∃ k, t = dataTok6 k) ∨ (t = endTok6 ∧ ts = [] ∧ s.dfOutq = [] ∧ s.pkCnt = 0)) := by
  cases hs with
  | idle _ _ empty => simp [empty.2.2] at pending
  | recv _ _ empty => simp [empty.2.2] at pending
  | packing phase _ _ ks _ queue =>
    obtain ⟨k, -, -, rfl, -⟩ := List.map_eq_cons_iff.mp (queue.symm.trans pending)
    exact ⟨phase, .inl ⟨k, rfl⟩⟩
  | flushed phase _ ks stream cnt queue =>
    cases ks with
    | nil =>
      obtain ⟨rfl, rfl⟩ := List.cons.inj (queue.symm.trans pending)
      exact ⟨phase, .inr ⟨rfl, rfl, stream, cnt⟩⟩
    | cons k ks =>
      obtain ⟨rfl, -⟩ := List.cons.inj (queue.symm.trans pending)
      exact ⟨phase, .inl ⟨k, rfl⟩⟩

/-- In DRAIN with an empty `PK_OUTQ` the stream still being packed stands in `DF_OUTQ`. -/
theorem State.PhaseShape.dfOutq_of_drain (hs : s.PhaseShape) (draining : s.phase = .drain)
    (empty : s.pkOutq = []) : ∃ c, s.dfOutq = compressedTokens c := by
  cases hs with
  | idle phase => simp [phase] at draining
  | recv phase => simp [phase] at draining
  | packing _ _ c _ stream => exact ⟨c, stream⟩
  | flushed _ _ _ _ _ queue => simp [queue] at empty

end

/-! ## What a step can do from a state of the invariant -/

/-- The effects of a step from a state with the shape of its PHASE: the words on the internal links are
legal, so the internal faults are missing, and what stands behind a token is known. -/
inductive ShapedEffect (s : State) : State → Prop where
  | reset (host : s.host.head? = some .reset) : ShapedEffect s s.popHost.rst
  | inData (b : Byte) (ts : List Tok8) (offered : s.inPort = dataTok8 b :: ts)
      (ready : s.inReady (dataTok8 b) = true) (empty : s.QueuesEmpty) :
      ShapedEffect s (s.popHost.popIn.appendPayload b)
  | inEnd (ts : List Tok8) (offered : s.inPort = endTok8 :: ts) (phase : s.phase ≠ .drain)
      (empty : s.QueuesEmpty) : ShapedEffect s (s.popHost.popIn.compress.enterPhase .drain)
  | inAbort (ts : List Tok8) (offered : s.inPort = abortTok8 :: ts) (phase : s.phase ≠ .drain)
      (empty : s.QueuesEmpty) : ShapedEffect s (s.popHost.popIn.clearPayload.enterPhase .idle)
  | inFault (t : Tok8) (ts : List Tok8) (r : Reject) (offered : s.inPort = t :: ts)
      (phase : s.phase ≠ .drain) (illegal : decodeIn t = .error r) :
      ShapedEffect s (s.popHost.popIn.raiseFault (rejectCause r) t)
  | pkData (b : Byte) (c : List Byte) (phase : s.phase = .drain)
      (stream : s.dfOutq = compressedTokens (b :: c)) (queue : s.pkOutq = []) :
      ShapedEffect s (s.popHost.popDfOutq.packByte b)
  | pkEnd (phase : s.phase = .drain) (stream : s.dfOutq = compressedTokens [])
      (queue : s.pkOutq = []) : ShapedEffect s s.popHost.popDfOutq.flushGroup
  | mpData (k : Code) (ts : List Tok6) (host : s.host.head? = some .take) (phase : s.phase = .drain)
      (pending : s.pkOutq = dataTok6 k :: ts) :
      ShapedEffect s (s.popHost.popPkOutq.emit (dataTok8 (alphaCode k)))
  | mpEnd (host : s.host.head? = some .take) (phase : s.phase = .drain)
      (pending : s.pkOutq = [endTok6]) (stream : s.dfOutq = []) (cnt : s.pkCnt = 0) :
      ShapedEffect s ((s.popHost.popPkOutq.emit endTok8).enterPhase .idle)
  | wait (host : s.host.head? ≠ some .reset) : ShapedEffect s s.popHost

/-- From a state with the shape of its PHASE, a step has one of these effects. -/
theorem State.PhaseShape.effect {s u : State} (hs : s.PhaseShape) (h : step s = .next u) :
    ShapedEffect s u := by
  have stream {t : Tok8} {ts : List Tok8} (ready : s.dfEmitReady = true)
      (pending : s.dfOutq = t :: ts) : s.phase = .drain ∧ s.pkOutq = [] ∧
        ∃ c, s.dfOutq = compressedTokens c ∧ compressedTokens c = t :: ts := by
    obtain ⟨-, draining, queue⟩ := (dfEmitReady_iff s).mp ready
    obtain ⟨c, stream⟩ := hs.dfOutq_of_drain draining queue
    exact ⟨draining, queue, c, stream, stream.symm.trans pending⟩
  cases step_effect h with
  | reset host => exact .reset host
  | inData b ts _ offered ready =>
    obtain ⟨-, phase, -⟩ := (inReady_iff s _).mp ready
    exact .inData b ts offered ready (hs.queuesEmpty phase)
  | inEnd ts _ offered ready =>
    obtain ⟨-, phase, -⟩ := (inReady_iff s _).mp ready
    exact .inEnd ts offered phase (hs.queuesEmpty phase)
  | inAbort ts _ offered ready =>
    obtain ⟨-, phase, -⟩ := (inReady_iff s _).mp ready
    exact .inAbort ts offered phase (hs.queuesEmpty phase)
  | inFault t ts r _ offered ready illegal =>
    obtain ⟨-, phase, -⟩ := (inReady_iff s _).mp ready
    exact .inFault t ts r offered phase illegal
  | pkData b ts _ pending ready =>
    obtain ⟨draining, queue, c, hc, head⟩ := stream ready pending
    rcases compressedTokens_eq_cons head with ⟨b', c', rfl, word, -⟩ | ⟨-, word, -⟩
    · rw [dataTok8_inj word]
      exact .pkData b' c' draining hc queue
    · exact absurd word (dataTok8_ne_endTok8 b)
  | pkEnd ts _ pending ready =>
    obtain ⟨draining, queue, c, hc, head⟩ := stream ready pending
    rcases compressedTokens_eq_cons head with ⟨b, -, -, word, -⟩ | ⟨rfl, -, -⟩
    · exact absurd word.symm (dataTok8_ne_endTok8 b)
    · exact .pkEnd draining hc queue
  | pkFault t ts _ pending ready illegal =>
    obtain ⟨-, -, c, -, head⟩ := stream ready pending
    rcases compressedTokens_eq_cons head with ⟨b, -, -, rfl, -⟩ | ⟨-, word, -⟩
    · exact absurd (kind8_dataTok8 b) illegal.1
    · exact absurd word illegal.2
  | mpData k ts host pending => exact .mpData k ts host (hs.pkOutq_cons pending).1 pending
  | mpEnd ts host pending =>
    obtain ⟨draining, ⟨k, word⟩ | ⟨-, rfl, stream, cnt⟩⟩ := hs.pkOutq_cons pending
    · exact absurd word.symm (dataTok6_ne_endTok6 k)
    · exact .mpEnd host draining pending stream cnt
  | mpFault t ts _ pending _ illegal =>
    obtain ⟨-, ⟨k, rfl⟩ | ⟨word, -⟩⟩ := hs.pkOutq_cons pending
    · exact absurd (kind6_dataTok6 k) illegal.1
    · exact absurd word illegal.2
  | wait host => exact .wait host

/-! ## Every step keeps the invariant -/

/-- On `IN` a word is rejected for its kind, or as END or ABORT with data (R68). -/
theorem decodeIn_error_cases {t : Tok8} {r : Reject} (illegal : decodeIn t = .error r) :
    (rejectCause r = .reservedKind ∧ kind8 t = 0b11#2) ∨
    (rejectCause r = .ctrlDataNonzero ∧ (kind8 t = kindEnd ∨ kind8 t = kindAbort) ∧
      data8 t ≠ 0x00#8) := by
  rcases decodeIn_cases t with ⟨-, hd⟩ | ⟨-, hd⟩ | ⟨-, hd⟩ | ⟨kind, data, hd⟩ | ⟨kind, hd⟩ <;>
    cases hd.symm.trans illegal
  · exact .inr ⟨rfl, kind, data⟩
  · exact .inl ⟨rfl, kind⟩

/-- Only reset and the fault of an illegal word on `IN` write the fault fields. -/
theorem ShapedEffect.keeps_faultFields {s u : State} (hs : s.FaultFieldsAgree)
    (effect : ShapedEffect s u) : u.FaultFieldsAgree := by
  cases effect with
  | reset => exact ⟨fun _ => ⟨rfl, rfl⟩, by simp⟩
  | inFault t ts r _ _ illegal => exact ⟨by simp, fun _ => decodeIn_error_cases illegal⟩
  | _ => simpa [State.FaultFieldsAgree] using hs

/-- A byte is appended only where the buffer is not full (R32). -/
theorem ShapedEffect.keeps_bufferFits {s u : State} (hs : s.BufferFits) (effect : ShapedEffect s u) :
    u.BufferFits := by
  intro m capacity
  cases effect with
  | reset => exact Nat.zero_le m
  | inData b _ _ ready =>
    obtain ⟨-, -, room⟩ := (inReady_dataTok8_iff s b).mp ready
    have fits := hs m capacity
    have notFull : s.dfBuf.length ≠ m := fun full => room (full ▸ capacity)
    rw [State.appendPayload_dfBuf, List.length_append, List.length_singleton]
    exact Nat.lt_of_le_of_ne fits notFull
  | inEnd => exact Nat.zero_le m
  | inAbort => exact Nat.zero_le m
  | pkData => rw [packByte_maxPayload] at capacity; rw [packByte_dfBuf]; exact hs m capacity
  | _ => exact hs m capacity

theorem State.PhaseShape.congr {s u : State} (hs : s.PhaseShape) (phase : u.phase = s.phase)
    (payload : u.dfBuf = s.dfBuf) (stream : u.dfOutq = s.dfOutq) (cnt : u.pkCnt = s.pkCnt)
    (queue : u.pkOutq = s.pkOutq) : u.PhaseShape := by
  rw [phaseShape_iff] at hs ⊢
  simpa only [State.QueuesEmpty, State.Draining, phase, payload, stream, cnt, queue] using hs

/-- Taking a code's word from `PK_OUTQ` leaves a message in DRAIN. -/
theorem State.PhaseShape.popPkOutq {s u : State} (hs : s.PhaseShape) {k : Code} {ts : List Tok6}
    (pending : s.pkOutq = dataTok6 k :: ts) (phase : u.phase = s.phase) (payload : u.dfBuf = s.dfBuf)
    (stream : u.dfOutq = s.dfOutq) (cnt : u.pkCnt = s.pkCnt) (queue : u.pkOutq = ts) :
    u.PhaseShape := by
  cases hs with
  | idle _ _ empty => simp [empty.2.2] at pending
  | recv _ _ empty => simp [empty.2.2] at pending
  | packing draining noPayload c ks hc hk bound =>
    cases ks with
    | nil => simp [hk] at pending
    | cons _ ks' =>
      have rest := (List.cons.inj (pending.symm.trans hk)).2
      exact .packing (phase.trans draining) (payload.trans noPayload) c ks' (stream.trans hc)
        (queue.trans rest) (Nat.le_of_succ_le bound)
  | flushed draining noPayload ks hc hcnt hk bound =>
    cases ks with
    | nil => exact absurd (List.cons.inj (pending.symm.trans hk)).1 (dataTok6_ne_endTok6 k)
    | cons _ ks' =>
      have rest := (List.cons.inj (pending.symm.trans hk)).2
      exact .flushed (phase.trans draining) (payload.trans noPayload) ks' (stream.trans hc)
        (cnt.trans hcnt) (queue.trans rest) (Nat.le_of_succ_le bound)

theorem ShapedEffect.keeps_shape {s u : State} (hs : s.PhaseShape) (effect : ShapedEffect s u) :
    u.PhaseShape := by
  cases effect with
  | reset => exact .idle rfl rfl ⟨rfl, rfl, rfl⟩
  | inData b _ _ _ empty => exact .recv rfl (by simp) empty
  | inEnd _ _ _ empty =>
    exact .packing rfl rfl (Config.deflateFn s.dfBuf) [] rfl empty.2.2 (Nat.zero_le 4)
  | inAbort _ _ _ empty => exact .idle rfl rfl empty
  | inFault => exact hs.congr rfl rfl rfl rfl rfl
  | pkData b c phase stream queue =>
    obtain ⟨ks, queued, bound, -⟩ := packByte_pack (s := s.popHost.popDfOutq) queue b
    exact .packing (by simp [phase]) (by simp [hs.dfBuf_of_drain phase]) c ks (by simp [stream])
      queued bound
  | pkEnd phase stream queue =>
    have bound : (pack s.heldBytes).length ≤ 4 := by
      have held := heldBytes_length_le s
      rw [pack_length, ceilDiv3]
      omega
    exact .flushed phase (hs.dfBuf_of_drain phase) (pack s.heldBytes) (by simp [stream]) rfl
      (flushGroup_pkOutq _) bound
  | mpData k ts _ _ pending => exact hs.popPkOutq pending rfl rfl rfl rfl (by simp [pending])
  | mpEnd _ phase pending stream cnt =>
    exact .idle rfl (hs.dfBuf_of_drain phase) ⟨stream, cnt, by simp [pending]⟩
  | wait => exact hs.congr rfl rfl rfl rfl rfl

/-- Settles O38: the four parts of the invariant, each by the effects that write its fields. -/
theorem stepKeepsInvariant : Obligations.StepKeepsInvariant := by
  intro s u hs h
  have effect := hs.shape.effect h
  exact (inv_iff u).mpr ⟨effect.keeps_faultFields hs.faultFields, effect.keeps_bufferFits hs.bufferFits,
    step_keeps_unheldBytesZero hs.unheldBytes h, effect.keeps_shape hs.shape⟩

theorem inv_rst (s : State) : s.rst.Inv :=
  (inv_iff _).mpr ⟨⟨fun _ => ⟨rfl, rfl⟩, by simp⟩, fun m _ => Nat.zero_le m,
    unheldBytesZero_of_cleared rfl rfl, .idle rfl rfl ⟨rfl, rfl, rfl⟩⟩

/-- Settles O37: a block at power-on is a block after reset. -/
theorem powerOnMeetsInvariant : Obligations.PowerOnMeetsInvariant :=
  fun capacity tokens actions => inv_rst (State.powerOn capacity tokens actions)

/-! ## The reachable states (R33, R160) -/

theorem State.Reachable.inv {t : State} (reached : t.Reachable) : t.Inv :=
  reached.induction powerOnMeetsInvariant fun hs h => stepKeepsInvariant _ _ hs h

/-- Where an entry stands only at the end of a list, nothing is behind it. -/
theorem eq_nil_of_append_singleton_eq {α : Type} {l pre post : List α} {x : α} (fresh : x ∉ l)
    (h : l ++ [x] = pre ++ x :: post) : post = [] := by
  rcases List.eq_nil_or_concat' post with rfl | ⟨post', y, rfl⟩
  · rfl
  · have front : l = pre ++ x :: post' :=
      List.append_inj_left' (h.trans (List.append_assoc pre (x :: post') [y]).symm) rfl
    exact absurd (front ▸ List.mem_append_cons_self) fresh

theorem State.PhaseShape.dfOutq_end_last {s : State} (hs : s.PhaseShape) {pre post : List Tok8}
    (h : s.dfOutq = pre ++ endTok8 :: post) : post = [] := by
  cases hs with
  | idle _ _ empty => simp [empty.1] at h
  | recv _ _ empty => simp [empty.1] at h
  | packing _ _ c _ stream =>
    exact eq_nil_of_append_singleton_eq (endTok8_not_mem_map_dataTok8 c) (stream.symm.trans h)
  | flushed _ _ _ stream => simp [stream] at h

/-- END is in `PK_OUTQ` only once the whole stream is packed, and then at the end. -/
theorem State.PhaseShape.pkOutq_end_last {s : State} (hs : s.PhaseShape) {pre post : List Tok6}
    (h : s.pkOutq = pre ++ endTok6 :: post) : post = [] ∧ s.dfOutq = [] := by
  cases hs with
  | idle _ _ empty => simp [empty.2.2] at h
  | recv _ _ empty => simp [empty.2.2] at h
  | packing _ _ _ ks _ queue =>
    have mem : endTok6 ∈ ks.map dataTok6 := queue ▸ h ▸ List.mem_append_cons_self
    exact absurd mem (endTok6_not_mem_map_dataTok6 ks)
  | flushed _ _ ks stream _ queue =>
    exact ⟨eq_nil_of_append_singleton_eq (endTok6_not_mem_map_dataTok6 ks) (queue.symm.trans h), stream⟩

theorem State.PhaseShape.queue_of_drain {s : State} (hs : s.PhaseShape) (draining : s.phase = .drain) :
    s.dfOutq ≠ [] ∨ s.pkOutq ≠ [] := by
  cases hs with
  | idle phase => simp [phase] at draining
  | recv phase => simp [phase] at draining
  | packing _ _ c _ stream => exact .inl (stream ▸ compressedTokens_ne_nil c)
  | flushed _ _ _ _ _ queue => exact .inr (by simp [queue])

/-- Settles O39: the shapes of the invariant, which every reachable state meets, read line by line. -/
theorem reachableStatesMeetR33 : Obligations.ReachableStatesMeetR33 := by
  intro t reached _
  have shape := reached.inv.shape
  obtain ⟨idle, recv, drain⟩ := (phaseShape_iff t).mp shape
  refine ⟨idle, fun phase => ?recv, fun phase => ⟨(drain phase).1, shape.queue_of_drain phase⟩,
    fun _ _ => shape.dfOutq_end_last, fun _ _ h => (shape.pkOutq_end_last h).1, fun inDf inPk => ?oneEnd⟩
  case recv => exact ⟨List.length_pos_of_ne_nil (recv phase).1, (recv phase).2⟩
  case oneEnd =>
    obtain ⟨pre, post, queue⟩ := List.append_of_mem inPk
    simp [(shape.pkOutq_end_last queue).2] at inDf

theorem toNat_of_reserved_kind {t : Tok8} (kind : kind8 t = 0b11#2) : 0x300 ≤ t.toNat := by
  have quotient : t.toNat / 256 = 3 := (kind8_eq_iff t _).mp kind
  omega

theorem toNat_of_ctrl_data {t : Tok8} (kind : kind8 t = kindEnd ∨ kind8 t = kindAbort)
    (data : data8 t ≠ 0x00#8) : (0x101 ≤ t.toNat ∧ t.toNat ≤ 0x1FF) ∨
      (0x201 ≤ t.toNat ∧ t.toNat ≤ 0x2FF) := by
  have remainder : t.toNat % 256 ≠ 0 := by
    rw [← data8_toNat]
    exact fun zero => data (BitVec.eq_of_toNat_eq zero)
  have quotient : t.toNat / 256 = 1 ∨ t.toNat / 256 = 2 :=
    kind.imp (kind8_eq_iff t _).mp (kind8_eq_iff t _).mp
  omega

theorem State.PhaseShape.pkOutq_length_le {s : State} (hs : s.PhaseShape) : s.pkOutq.length ≤ 5 := by
  cases hs with
  | idle _ _ empty => simp [empty.2.2]
  | recv _ _ empty => simp [empty.2.2]
  | packing _ _ _ _ _ queue bound => rw [queue, List.length_map]; omega
  | flushed _ _ _ _ _ queue bound =>
    rw [queue, length_codes_then_end]
    exact Nat.succ_le_succ bound

/-- Settles O40: the fault fields by the three cases of the invariant, with the ranges of the words of
each class. -/
theorem reachableFaultsAndBounds : Obligations.ReachableFaultsAndBounds := by
  intro t reached
  obtain ⟨clear, raised⟩ := reached.inv.faultFields
  rw [← and_assoc, ← and_assoc, ← and_assoc]
  refine ⟨?fault, reached.inv.shape.pkOutq_length_le, reached.inv.bufferFits⟩
  cases fault : t.fault with
  | false => simp [(clear fault).1]
  | true =>
    rcases raised fault with ⟨cause, kind⟩ | ⟨cause, kind, data⟩
    · simpa [cause] using toNat_of_reserved_kind kind
    · simpa [cause] using toNat_of_ctrl_data kind data

/-! ## Where the tokens go (R86, R105) -/

/-- A DATA word of `PK2MP` leaves as its character's word, in the form of the statement. -/
theorem outWord_dataTok6 (k : Code) :
    (if dataTok6 k = 0x40#8 then 0x100#10 else 0b00#2 ++ alphaCode ((dataTok6 k).setWidth 6)) =
      dataTok8 (alphaCode k) := by
  rw [setWidth_eq_data6, data6_dataTok6]
  exact if_neg (dataTok6_ne_endTok6 k)

/-- Settles O36, effect by effect. -/
theorem outKeepsEveryToken : Obligations.OutKeepsEveryToken := by
  intro s u hs h host
  cases hs.shape.effect h with
  | reset asserted => exact absurd asserted host
  | mpData k ts takes _ pending =>
    exact .inl ⟨dataTok6 k, ts, takes, pending, by simp [pending], rfl, rfl,
      congrArg (s.out ++ [·]) (outWord_dataTok6 k).symm⟩
  | mpEnd takes _ pending =>
    exact .inl ⟨endTok6, [], takes, pending, by simp [pending], rfl, rfl, rfl⟩
  | pkData b c _ stream queue =>
    have rest : (s.popHost.popDfOutq.packByte b).dfOutq = compressedTokens c := by simp [stream]
    refine .inr ⟨by simp, .inl ⟨b, queue, by rw [stream, rest]; rfl, ?_⟩⟩
    have write := packByte_held_cases s.popHost.popDfOutq b
    rwa [State.popDfOutq_pkOutq, State.popHost_pkOutq, queue] at write
  | pkEnd _ stream queue =>
    exact .inr ⟨rfl, .inr (.inl ⟨queue, stream, by simp [stream], flushGroup_heldBytes _,
      flushGroup_pkOutq _⟩)⟩
  | inEnd _ _ phase empty =>
    have held := heldBytes_of_pkCnt_zero empty.2.1
    exact .inr ⟨rfl, .inr (.inr (.inl ⟨phase, rfl, empty.1, empty.2.2, held, rfl, empty.2.2, held⟩))⟩
  | _ => exact .inr ⟨rfl, .inr (.inr (.inr ⟨rfl, rfl, rfl⟩))⟩

/-- Settles O42: outside DRAIN a step has no effect of a link behind `IN`, and enters DRAIN only by
`IN.END`. -/
theorem storeAndForward : Obligations.StoreAndForward := by
  intro s u hs phase h
  have emptyAfter : u.phase ≠ .drain → u.QueuesEmpty := (stepKeepsInvariant s u hs h).shape.queuesEmpty
  cases hs.shape.effect h with
  | inEnd _ _ _ empty => exact ⟨rfl, emptyAfter, fun _ => ⟨rfl, empty.2.1, empty.2.2⟩⟩
  | reset => exact ⟨rfl, emptyAfter, by simp⟩
  | inData => exact ⟨rfl, emptyAfter, by simp⟩
  | inAbort => exact ⟨rfl, emptyAfter, by simp⟩
  | inFault => exact ⟨rfl, emptyAfter, fun draining => absurd draining phase⟩
  | wait => exact ⟨rfl, emptyAfter, fun draining => absurd draining phase⟩
  | pkData _ _ draining => exact absurd draining phase
  | pkEnd draining => exact absurd draining phase
  | mpData _ _ _ draining => exact absurd draining phase
  | mpEnd _ draining => exact absurd draining phase

/-! ## The tokens owed to the host (R86) -/

/-- The head of `PK_OUTQ` is owed first. -/
theorem pendingOut_of_pkOutq_cons {s : State} {w : Tok6} {ws : List Tok6}
    (pending : s.pkOutq = w :: ws) : s.pendingOut = outToken w :: s.popPkOutq.pendingOut := by
  simp [State.pendingOut, State.popPkOutq, State.heldBytes, pending]

theorem characterTokens_of_pack_append {ks : List Code} {c d : List Byte}
    (h : ks ++ pack c = pack d) :
    (ks.map dataTok6).map outToken ++ characterTokens c = characterTokens d := by
  rw [characterTokens, characterTokens, ← h, List.map_append, List.map_map]
  congr 1
  exact List.map_congr_left fun k _ => outToken_dataTok6 k

/-- Handing a byte to the packer moves it along, and what the block owes stays the same. -/
theorem pendingOut_packByte {s : State} {b : Byte} {c : List Byte}
    (stream : s.dfOutq = compressedTokens (b :: c)) (queue : s.pkOutq = []) :
    (s.popDfOutq.packByte b).pendingOut = s.pendingOut := by
  obtain ⟨ks, queued, -, packed⟩ := packByte_pack (s := s.popDfOutq) queue b
  have rest : (s.popDfOutq.packByte b).dfOutq = compressedTokens c := by simp [stream]
  rw [pendingOut_of_compressedTokens rest, pendingOut_of_compressedTokens stream, queued, queue,
    ← List.append_assoc, characterTokens_of_pack_append (packed c)]
  rfl

/-- Flushing the partial group and END moves them along too. -/
theorem pendingOut_flushGroup {s : State} (stream : s.dfOutq = compressedTokens [])
    (queue : s.pkOutq = []) : s.popDfOutq.flushGroup.pendingOut = s.pendingOut := by
  have rest : s.popDfOutq.flushGroup.dfOutq = [] := by simp [stream]
  have held : s.popDfOutq.heldBytes = s.heldBytes := rfl
  have chars : ((pack s.heldBytes).map dataTok6).map outToken = characterTokens s.heldBytes := by
    have whole := characterTokens_of_pack_append (c := []) (List.append_nil (pack s.heldBytes))
    rwa [show characterTokens [] = [] from rfl, List.append_nil] at whole
  rw [pendingOut_of_dfOutq_nil rest, pendingOut_of_compressedTokens stream, queue, flushGroup_pkOutq,
    held, List.map_append, List.append_nil, chars]
  rfl

/-- The compressed message is owed as its tokens. -/
theorem pendingOut_compress {s : State} (empty : s.QueuesEmpty) :
    s.compress.pendingOut = messageTokens s.dfBuf := by
  obtain ⟨-, cnt, queue⟩ := empty
  have held : s.compress.heldBytes = [] := heldBytes_of_pkCnt_zero cnt
  rw [pendingOut_of_compressedTokens rfl, held, State.compress_pkOutq, queue]
  rfl

/-- Settles O49: each effect moves the tokens along, or leaves them, or is `IN.END`. -/
theorem owedOutputIsConserved : Obligations.OwedOutputIsConserved := by
  intro s u hs h host
  cases hs.shape.effect h with
  | reset asserted => exact absurd asserted host
  | inEnd _ _ phase empty =>
    exact .inr ⟨phase, rfl, pendingOut_of_queuesEmpty empty, rfl,
      pendingOut_compress (s := s.popHost.popIn) empty⟩
  | pkData b c _ stream queue =>
    have owed := pendingOut_packByte (s := s.popHost) stream queue
    exact .inl (by rw [owed, packByte_out]; rfl)
  | pkEnd _ stream queue =>
    have owed := pendingOut_flushGroup (s := s.popHost) stream queue
    exact .inl (by rw [owed]; rfl)
  | mpData k ts _ _ pending =>
    refine .inl ?_
    rw [pendingOut_of_pkOutq_cons pending, outToken_dataTok6]
    exact List.append_assoc _ _ _
  | mpEnd _ _ pending =>
    refine .inl ?_
    rw [pendingOut_of_pkOutq_cons pending, outToken_endTok6]
    exact List.append_assoc _ _ _
  | _ => exact .inl rfl

end Sys2Proof.Machine
end

section
/-!
PROOF. The family other, messages on every schedule (R87, R90, R184): where a block stands in a message
the host holds, and what has left on `OUT` there.
-/

namespace Sys2Proof.Machine

/-! ## What stands first on IN in a message -/

theorem dataTok8_ne_abortTok8 (b : Byte) : dataTok8 b ≠ abortTok8 := by
  intro h
  have kind := congrArg kind8 h
  rw [kind8_dataTok8, kind8_abortTok8] at kind
  exact absurd kind (by decide)

/-- The rest of a message begins with its next byte's word, or with END where no byte is left. -/
theorem message_eq_cons {q : List Byte} {rest ts : List Tok8} {t : Tok8}
    (h : q.map dataTok8 ++ endTok8 :: rest = t :: ts) :
    (∃ b q', q = b :: q' ∧ t = dataTok8 b ∧ ts = q'.map dataTok8 ++ endTok8 :: rest) ∨
    (q = [] ∧ t = endTok8 ∧ ts = rest) := by
  cases q with
  | nil =>
    obtain ⟨rfl, rfl⟩ := List.cons.inj h
    exact .inr ⟨rfl, rfl, rfl⟩
  | cons b q' =>
    obtain ⟨rfl, rfl⟩ := List.cons.inj h
    exact .inl ⟨b, q', rfl, rfl, rfl⟩

/-! ## Where the block stands in a message -/

/-- The stages of a message with payload `p`, after which the host holds `rest`, for a block that had
emitted `before`: part of the payload is received and nothing is emitted; or the message is in DRAIN, and
what is emitted and what is owed make its tokens; or all its tokens have left. -/
inductive InMessage (p : List Byte) (rest before : List Tok8) (s : State) : Prop where
  | receiving (q : List Byte) (phase : s.phase ≠ .drain) (payload : s.dfBuf ++ q = p)
      (offered : s.inPort = q.map dataTok8 ++ endTok8 :: rest) (silent : s.out = before)
  | draining (phase : s.phase = .drain) (owed : s.out ++ s.pendingOut = before ++ messageTokens p)
  | finished (sent : before ++ messageTokens p <+: s.out)

/-- What is emitted is not taken back. -/
theorem step_out_prefix {s u : State} (h : step s = .next u) : s.out <+: u.out := by
  cases step_effect h <;> simp

/-- While a message is received a step takes its next byte, or its END, which starts DRAIN, or waits. -/
theorem receiving_step {s u : State} {p q : List Byte} {rest before : List Tok8} (hs : s.Inv)
    (host : s.host.head? ≠ some .reset) (h : step s = .next u) (phase : s.phase ≠ .drain)
    (payload : s.dfBuf ++ q = p) (offered : s.inPort = q.map dataTok8 ++ endTok8 :: rest)
    (silent : s.out = before) : InMessage p rest before u := by
  cases hs.shape.effect h with
  | reset asserted => exact absurd asserted host
  | inData b ts head =>
    rcases message_eq_cons (offered.symm.trans head) with ⟨b', q', rfl, word, tail⟩ | ⟨-, word, -⟩
    · rw [← dataTok8_inj word] at payload
      exact .receiving q' (by simp) (by simpa using payload) (by simp [head, tail]) silent
    · exact absurd word (dataTok8_ne_endTok8 b)
  | inEnd ts head _ empty =>
    rcases message_eq_cons (offered.symm.trans head) with ⟨b, -, -, word, -⟩ | ⟨rfl, -, -⟩
    · exact absurd word.symm (dataTok8_ne_endTok8 b)
    · have owed := pendingOut_compress (s := s.popHost.popIn) empty
      rw [List.append_nil] at payload
      exact .draining rfl (congrArg₂ (· ++ ·) silent (owed.trans (congrArg messageTokens payload)))
  | inAbort ts head =>
    rcases message_eq_cons (offered.symm.trans head) with ⟨b, -, -, word, -⟩ | ⟨-, word, -⟩
    · exact absurd word.symm (dataTok8_ne_abortTok8 b)
    · exact absurd word (by decide)
  | inFault t ts r head _ illegal =>
    have rejected : decode (.onIn t) = .error r := illegal
    rcases message_eq_cons (offered.symm.trans head) with ⟨b, -, -, rfl, -⟩ | ⟨-, rfl, -⟩
    · exact absurd (decode_encode (.inData b)) (decode_ne_ok_of_error rejected _)
    · exact absurd (decode_encode .inEnd) (decode_ne_ok_of_error rejected _)
  | wait => exact .receiving q phase payload offered silent
  | pkData _ _ draining => exact absurd draining phase
  | pkEnd draining => exact absurd draining phase
  | mpData _ _ _ draining => exact absurd draining phase
  | mpEnd _ draining => exact absurd draining phase

/-- In DRAIN what is emitted and what is owed stay the same together. -/
theorem owed_of_drain {s u : State} (hs : s.Inv) (host : s.host.head? ≠ some .reset)
    (draining : s.phase = .drain) (h : step s = .next u) :
    u.out ++ u.pendingOut = s.out ++ s.pendingOut := by
  rcases owedOutputIsConserved s u hs h host with conserved | ⟨phase, -⟩
  · exact conserved
  · exact absurd draining phase

theorem State.Inv.pendingOut_of_not_drain {s : State} (hs : s.Inv) (phase : s.phase ≠ .drain) :
    s.pendingOut = [] :=
  pendingOut_of_queuesEmpty (hs.shape.queuesEmpty phase)

/-- A step without reset stays in the message or moves it on. -/
theorem InMessage.after_step {s u : State} {p : List Byte} {rest before : List Tok8}
    (stage : InMessage p rest before s) (hs : s.Inv) (host : s.host.head? ≠ some .reset)
    (h : step s = .next u) : InMessage p rest before u := by
  cases stage with
  | receiving q phase payload offered silent =>
    exact receiving_step hs host h phase payload offered silent
  | draining phase owed =>
    have conserved := (owed_of_drain hs host phase h).trans owed
    rcases step_phase_of_drain phase host h with stays | ⟨idle, -⟩
    · exact .draining stays conserved
    · have nothing := (stepKeepsInvariant s u hs h).pendingOut_of_not_drain (by simp [idle])
      rw [nothing, List.append_nil] at conserved
      exact .finished (conserved ▸ List.prefix_rfl)
  | finished sent => exact .finished (sent.trans (step_out_prefix h))

theorem InMessage.after_run {n : Nat} {s t : State} {p : List Byte} {rest before : List Tok8}
    (stage : InMessage p rest before s) (hs : s.Inv) (quiet : noReset n s)
    (h : run n s = .next t) : InMessage p rest before t := by
  induction n generalizing s with
  | zero => cases h; exact stage
  | succ n ih =>
    obtain ⟨u, first, others⟩ := step_of_run_succ h
    exact ih (stage.after_step hs (host_head?_ne_reset_of_noReset quiet) first)
      (stepKeepsInvariant s u hs first) (noReset_of_step quiet first) others

/-- An IDLE block whose host holds the message stands at its beginning. -/
theorem inMessage_of_idle {s : State} {p : List Byte} {rest : List Tok8} (hs : s.Inv)
    (idle : s.phase = .idle) (offered : s.inPort = p.map dataTok8 ++ endTok8 :: rest) :
    InMessage p rest s.out s := by
  have noPayload : s.dfBuf = [] := (((phaseShape_iff s).mp hs.shape).1 idle).1
  exact .receiving p (by simp [idle]) (by rw [noPayload]; rfl) offered rfl

/-- At every stage what has left and the message's tokens agree as far as the shorter goes. -/
theorem InMessage.agrees {s : State} {p : List Byte} {rest before : List Tok8}
    (stage : InMessage p rest before s) :
    s.out <+: before ++ messageTokens p ∨ before ++ messageTokens p <+: s.out := by
  cases stage with
  | receiving _ _ _ _ silent => exact .inl (silent ▸ List.prefix_append _ _)
  | draining _ owed => exact .inl (owed ▸ List.prefix_append _ _)
  | finished sent => exact .inr sent

/-- What has left since an IDLE state whose host holds the message, against the message's tokens. -/
theorem sent_agrees {s t : State} {p : List Byte} {rest sent : List Tok8} {n : Nat} (hs : s.Inv)
    (idle : s.phase = .idle) (offered : s.inPort = p.map dataTok8 ++ endTok8 :: rest)
    (quiet : noReset n s) (h : run n s = .next t) (out : t.out = s.out ++ sent) :
    sent <+: messageTokens p ∨ messageTokens p <+: sent := by
  have agrees := ((inMessage_of_idle hs idle offered).after_run hs quiet h).agrees
  rwa [out, List.prefix_append_right_inj, List.prefix_append_right_inj] at agrees

/-- Settles O43: the stage a run reaches, and, for the step that emits END, that only `MP.END` does. -/
theorem messageOutputOnEverySchedule : Obligations.MessageOutputOnEverySchedule := by
  refine ⟨?agrees, ?ends⟩
  case agrees =>
    intro s t p rest n hs _ idle offered quiet h
    exact ((inMessage_of_idle hs idle offered).after_run hs quiet h).agrees
  case ends =>
    intro s u hs _ h sent
    have idle : u.phase = .idle := by
      cases hs.shape.effect h with
      | mpEnd => rfl
      | _ => simp at sent
    exact ⟨idle, ((phaseShape_iff u).mp (stepKeepsInvariant s u hs h).shape).1 idle⟩

/-! ## Up to the first END -/

theorem endTok8_mem_messageTokens (p : List Byte) : endTok8 ∈ messageTokens p := by
  simp [messageTokens]

/-- What has left up to a first END is a part of the message's tokens, whose one END is their last. -/
theorem prefix_messageTokens_of_first_end {p : List Byte} {sent : List Tok8}
    (agrees : sent <+: messageTokens p ∨ messageTokens p <+: sent)
    (noEnd : endTok8 ∉ sent.dropLast) : sent <+: messageTokens p := by
  rcases agrees with part | ⟨more, rfl⟩
  · exact part
  · rcases List.eq_nil_or_concat' more with rfl | ⟨more', t, rfl⟩
    · rw [List.append_nil]
    · rw [← List.append_assoc, List.dropLast_concat] at noEnd
      exact absurd (List.mem_append_left _ (endTok8_mem_messageTokens p)) noEnd

/-- Settles O46: both outputs are parts of the one message's tokens. -/
theorem messageOutputIndependent : Obligations.MessageOutputIndependent := by
  intro s1 s2 t1 t2 p rest1 rest2 out1 out2 n1 n2 inv1 _ idle1 inv2 _ idle2 offered1 offered2
    quiet1 quiet2 run1 run2 sent1 sent2 noEnd1 noEnd2
  have part1 := prefix_messageTokens_of_first_end
    (sent_agrees inv1 idle1 offered1 quiet1 run1 sent1) noEnd1
  have part2 := prefix_messageTokens_of_first_end
    (sent_agrees inv2 idle2 offered2 quiet2 run2 sent2) noEnd2
  exact List.prefix_or_prefix_of_prefix part1 part2

/-- Settles O47: without END the output is short of the message's last token; the reset step restores the
state after reset and keeps `OUT`. -/
theorem resetCutsMessageShort : Obligations.ResetCutsMessageShort := by
  intro s t p rest sent n hs inv _ idle offered quiet h asserted out noEnd
  have part := prefix_messageTokens_of_first_end (sent_agrees inv idle offered quiet h out)
    fun mem => noEnd (List.mem_of_mem_dropLast mem)
  refine ⟨?_, t.popHost.rst, step_of_reset asserted, rfl, rfl, rfl, rfl, rfl, rfl⟩
  rcases List.prefix_concat_iff.mp part with whole | data
  · exact absurd (whole ▸ endTok8_mem_messageTokens p) noEnd
  · exact data

end Sys2Proof.Machine
end

section
/-!
PROOF. The family other, progress (R89, R91): a run in DRAIN step by step, its counts, the host that takes
every token, and the whole run of a message.
-/

namespace Sys2Proof.Machine

/-! ## Runs in DRAIN -/

/-- `n` steps without reset, each taken in DRAIN. -/
inductive DrainRun : Nat → State → State → Prop where
  | refl (s : State) : DrainRun 0 s s
  | head {n : Nat} {s u t : State} (phase : s.phase = .drain) (host : s.host.head? ≠ some .reset)
      (first : step s = .next u) (others : DrainRun n u t) : DrainRun (n + 1) s t

theorem drainRun_of_run {n : Nat} {s t : State} (quiet : noReset n s)
    (drains : ∀ j v, j < n → run j s = .next v → v.phase = .drain) (h : run n s = .next t) :
    DrainRun n s t := by
  induction n generalizing s with
  | zero => cases h; exact .refl _
  | succ n ih =>
    obtain ⟨u, first, others⟩ := step_of_run_succ h
    refine .head (drains 0 s (Nat.succ_pos n) rfl) (host_head?_ne_reset_of_noReset quiet) first
      (ih (noReset_of_step quiet first) (fun j v lt hv => ?_) others)
    exact drains (j + 1) v (Nat.succ_lt_succ lt) ((run_succ_of_step first j).trans hv)

theorem DrainRun.run_eq {n : Nat} {s t : State} (d : DrainRun n s t) : run n s = .next t := by
  induction d with
  | refl => rfl
  | head _ _ first _ ih => rw [run_succ_of_step first, ih]

theorem DrainRun.drain_before {n : Nat} {s t : State} (d : DrainRun n s t) :
    ∀ j v, j < n → run j s = .next v → v.phase = .drain := by
  induction d with
  | refl => intro j v lt; exact absurd lt (Nat.not_lt_zero j)
  | head phase _ first _ ih =>
    intro j v lt hv
    cases j with
    | zero => cases hv; exact phase
    | succ j => exact ih j v (Nat.lt_of_succ_lt_succ lt) ((run_succ_of_step first j).symm.trans hv)

theorem DrainRun.inv {n : Nat} {s t : State} (d : DrainRun n s t) (hs : s.Inv) : t.Inv :=
  run_keeps (fun inv h => stepKeepsInvariant _ _ inv h) hs d.run_eq

/-- A run in DRAIN that has ended the message stands in IDLE. -/
theorem DrainRun.phase {n : Nat} {s t : State} (d : DrainRun n s t) (draining : s.phase = .drain) :
    t.phase = .drain ∨ t.phase = .idle := by
  induction d with
  | refl => exact .inl draining
  | head phase host first others ih =>
    rcases step_phase_of_drain phase host first with stays | ⟨idle, -⟩
    · exact ih stays
    · cases others with
      | refl => exact .inr idle
      | head again => simp [idle] at again

theorem DrainRun.owed {n : Nat} {s t : State} (d : DrainRun n s t) (hs : s.Inv) :
    t.out ++ t.pendingOut = s.out ++ s.pendingOut := by
  induction d with
  | refl => rfl
  | head phase host first _ ih =>
    exact (ih (stepKeepsInvariant _ _ hs first)).trans (owed_of_drain hs host phase first)

theorem DrainRun.inPort {n : Nat} {s t : State} (d : DrainRun n s t) : t.inPort = s.inPort := by
  induction d with
  | refl => rfl
  | head phase _ first _ ih => exact ih.trans (step_keeps_inPort_of_drain phase first)

/-- In DRAIN no fault is raised: nothing is taken from `IN`, and the internal links hold legal words. -/
theorem step_fault_of_drain {s u : State} (hs : s.Inv) (host : s.host.head? ≠ some .reset)
    (draining : s.phase = .drain) (h : step s = .next u) : u.fault = s.fault := by
  cases hs.shape.effect h with
  | reset asserted => exact absurd asserted host
  | inFault _ _ _ _ phase => exact absurd draining phase
  | _ => simp

theorem DrainRun.fault {n : Nat} {s t : State} (d : DrainRun n s t) (hs : s.Inv) :
    t.fault = s.fault := by
  induction d with
  | refl => rfl
  | head phase host first _ ih =>
    exact (ih (stepKeepsInvariant _ _ hs first)).trans (step_fault_of_drain hs host phase first)

/-! ## What each kind of step in DRAIN counts for -/

/-- Running a word of `DF2PK` neither pops `DF_OUTQ` nor emits. -/
theorem runToken_onDf2pk_frame {t : Tok8} {s u : State} (h : runToken (.onDf2pk t) s = .next u) :
    u.dfOutq = s.dfOutq ∧ u.out = s.out := by
  rcases decodeDf2pk_cases t with ⟨-, hd⟩ | ⟨-, hd⟩ | ⟨-, -, hd⟩
  · rw [runToken_ok (lt := .onDf2pk t) hd] at h
    rcases execPkData_cases h with ⟨-, rfl⟩ | ⟨-, rfl⟩ <;> simp
  · rw [runToken_ok (lt := .onDf2pk t) hd] at h
    rcases execPkEnd_cases h with ⟨-, rfl⟩ | ⟨-, rfl⟩ <;> simp
  · rw [runToken_error (lt := .onDf2pk t) hd] at h
    cases h
    exact ⟨rfl, rfl⟩

/-- Running a legal word of `PK2MP` emits one token and leaves `DF_OUTQ`. -/
theorem runToken_onPk2mp_frame {t : Tok6} {s u : State} (ready : s.mapperReady = true)
    (legal : (∃ k, t = dataTok6 k) ∨ t = endTok6) (h : runToken (.onPk2mp t) s = .next u) :
    u.dfOutq = s.dfOutq ∧ u.out.length = s.out.length + 1 := by
  rcases legal with ⟨k, rfl⟩ | rfl
  · rw [runToken_ok (lt := .onPk2mp _) (decode_encode (.mpData k)), exec_mpData_of_ready ready] at h
    cases h
    simp
  · rw [runToken_ok (lt := .onPk2mp _) (decode_encode .mpEnd), exec_mpEnd_of_ready ready] at h
    cases h
    simp

/-- A step counted as one of its kind, and not otherwise. -/
def tally (isKind : StepKind → Bool) (s : State) : Nat := if isKind s.chosenStep then 1 else 0

theorem countSteps_succ (isKind : StepKind → Bool) (n : Nat) {s u : State} (h : step s = .next u) :
    countSteps isKind (n + 1) s = tally isKind s + countSteps isKind n u := by
  rw [countSteps, h, tally]

/-- A step in DRAIN without reset is of one kind: `DF.EMIT`, which takes one word from `DF_OUTQ`; the
`OUT` step, which delivers one owed token; or the wait, which does neither. -/
theorem tally_of_drain {s u : State} (hs : s.Inv) (draining : s.phase = .drain)
    (host : s.host.head? ≠ some .reset) (h : step s = .next u) :
    tally StepKind.isDfEmit s + u.dfOutq.length = s.dfOutq.length ∧
    tally StepKind.isEmitOut s + u.pendingOut.length = s.pendingOut.length ∧
    tally StepKind.isDfEmit s + tally StepKind.isEmitOut s + tally StepKind.isWait s = 1 := by
  have conserved := congrArg List.length (owed_of_drain hs host draining h)
  rw [List.length_append, List.length_append] at conserved
  have guard := chosenStep_guard s
  rw [step] at h
  unfold tally
  generalize s.chosenStep = k at guard h ⊢
  cases guard with
  | reset asserted => exact absurd asserted host
  | acceptIn t _ _ _ ready => simp [not_inReady_of_fault_or_drain (.inr draining) t] at ready
  | dfEmit t ts _ pending =>
    obtain ⟨stream, out⟩ := runToken_onDf2pk_frame h
    have popped : u.dfOutq.length + 1 = s.dfOutq.length := by simp [stream, pending]
    have silent : u.out.length = s.out.length := congrArg List.length out
    exact ⟨(Nat.add_comm 1 _).trans popped, (Nat.zero_add _).trans (by omega), rfl⟩
  | emitOut t ts _ pending ready =>
    have legal : (∃ k, t = dataTok6 k) ∨ t = endTok6 :=
      (hs.shape.pkOutq_cons pending).2.imp_right And.left
    obtain ⟨stream, out⟩ := runToken_onPk2mp_frame (s := s.popHost.popPkOutq) ready legal h
    have same : u.dfOutq.length = s.dfOutq.length := congrArg List.length stream
    have emitted : u.out.length = s.out.length + 1 := out
    exact ⟨(Nat.zero_add _).trans same, (Nat.add_comm 1 _).trans (by omega), rfl⟩
  | wait =>
    cases h
    exact ⟨Nat.zero_add _, Nat.zero_add _, rfl⟩

/-- The counts of a run in DRAIN, against what is left of the message. -/
theorem DrainRun.counts {n : Nat} {s t : State} (d : DrainRun n s t) (hs : s.Inv) :
    countSteps StepKind.isDfEmit n s + t.dfOutq.length = s.dfOutq.length ∧
    countSteps StepKind.isEmitOut n s + t.pendingOut.length = s.pendingOut.length ∧
    countSteps StepKind.isDfEmit n s + countSteps StepKind.isEmitOut n s +
      countSteps StepKind.isWait n s = n := by
  induction d with
  | refl => exact ⟨Nat.zero_add _, Nat.zero_add _, rfl⟩
  | head phase host first _ ih =>
    obtain ⟨emits, outs, one⟩ := tally_of_drain hs phase host first
    obtain ⟨moreEmits, moreOuts, all⟩ := ih (stepKeepsInvariant _ _ hs first)
    rw [countSteps_succ _ _ first, countSteps_succ _ _ first, countSteps_succ _ _ first]
    omega

/-! ## The host that takes every token -/

/-- The `DF.EMIT` and `OUT` steps a message in DRAIN still needs. -/
def State.work (s : State) : Nat := s.dfOutq.length + s.pendingOut.length

theorem work_pos_of_drain {s : State} (hs : s.Inv) (draining : s.phase = .drain) : 0 < s.work := by
  rcases hs.shape.queue_of_drain draining with stream | queue
  · exact Nat.add_pos_left (List.length_pos_of_ne_nil stream) _
  · obtain ⟨w, ws, pending⟩ := List.exists_cons_of_ne_nil queue
    rw [State.work, pendingOut_of_pkOutq_cons pending]
    exact Nat.succ_pos _

theorem work_eq_zero_of_idle {s : State} (hs : s.Inv) (idle : s.phase = .idle) : s.work = 0 := by
  have notDrain : s.phase ≠ .drain := by simp [idle]
  rw [State.work, (hs.shape.queuesEmpty notDrain).1, hs.pendingOut_of_not_drain notDrain]
  rfl

/-- A block in DRAIN does not wait for a host that takes: with no token pending `DF.EMIT` is enabled, and
else the `OUT` step. -/
theorem not_isWait_of_taking {s : State} (hs : s.Inv) (fault : s.fault = false)
    (draining : s.phase = .drain) (host : s.host.head? ≠ some .reset)
    (takes : s.pkOutq ≠ [] → s.host.head? = some .take) : s.chosenStep.isWait = false := by
  cases queue : s.pkOutq with
  | nil =>
    obtain ⟨c, stream⟩ := hs.shape.dfOutq_of_drain draining queue
    obtain ⟨t, ts, head⟩ := List.exists_cons_of_ne_nil (compressedTokens_ne_nil c)
    have ready := (dfEmitReady_iff s).mpr ⟨fault, draining, queue⟩
    rw [chosenStep_eq_dfEmit ready (stream.trans head) host]
    rfl
  | cons w ws =>
    obtain ⟨hs', hosts⟩ := List.head?_eq_some_iff.mp (takes (by simp [queue]))
    have ready := (mapperReady_iff s).mpr fault
    simp [State.chosenStep, hosts, queue, ready, StepKind.isWait]

/-- Each step for a host that takes does one piece of the work left. -/
theorem work_step_of_taking {s u : State} (hs : s.Inv) (fault : s.fault = false)
    (draining : s.phase = .drain) (host : s.host.head? ≠ some .reset)
    (takes : s.pkOutq ≠ [] → s.host.head? = some .take) (h : step s = .next u) :
    u.work + 1 = s.work := by
  obtain ⟨emits, outs, one⟩ := tally_of_drain hs draining host h
  have noWait : tally StepKind.isWait s = 0 := by
    simp [tally, not_isWait_of_taking hs fault draining host takes]
  unfold State.work
  omega

/-- A host that takes gets the message to its end in exactly the steps it still needs. -/
theorem drainRun_of_taking {n : Nat} {s : State} (hs : s.Inv) (fault : s.fault = false)
    (phase : s.phase = .drain ∨ s.phase = .idle) (work : s.work = n) (quiet : noReset n s)
    (takes : ∀ j v, j < n → run j s = .next v → v.pkOutq ≠ [] → v.host.head? = some .take) :
    ∃ t, DrainRun n s t ∧ t.phase = .idle := by
  induction n generalizing s with
  | zero =>
    refine ⟨s, .refl s, phase.resolve_left fun draining => ?_⟩
    exact absurd work (Nat.ne_of_gt (work_pos_of_drain hs draining))
  | succ n ih =>
    have draining : s.phase = .drain := phase.resolve_right fun idle => by
      simp [work_eq_zero_of_idle hs idle] at work
    have host := host_head?_ne_reset_of_noReset quiet
    obtain ⟨u, first⟩ := stepAlwaysAnswersNext s
    have less := work_step_of_taking hs fault draining host (takes 0 s (Nat.succ_pos n) rfl) first
    obtain ⟨t, others, idle⟩ := ih (stepKeepsInvariant s u hs first)
      ((step_fault_of_drain hs host draining first).trans fault)
      ((step_phase_of_drain draining host first).imp_right And.left) (by omega)
      (noReset_of_step quiet first) fun j v lt hv =>
        takes (j + 1) v (Nat.succ_lt_succ lt) ((run_succ_of_step first j).trans hv)
    exact ⟨t, .head draining host first others, idle⟩

/-! ## From IN.END to the message's END -/

/-- The block right after `IN.END` is accepted, before the host's tokens `rest` and actions `hs`. -/
def State.accepted (s : State) (rest : List Tok8) (hs : List HostAction) : State :=
  { s with host := hs, inPort := rest }.compress.enterPhase .drain

theorem step_of_offered_end {s : State} {rest : List Tok8} {hs : List HostAction}
    (fault : s.fault = false) (phase : s.phase ≠ .drain) (offered : s.inPort = endTok8 :: rest)
    (host : s.host = .offer :: hs) : step s = .next (s.accepted rest hs) := by
  have ready := (inReady_endTok8_iff s).mpr ⟨fault, phase⟩
  exact (step_of_offer_encode (i := .inEnd) rfl host offered ready).trans (exec_inEnd_of_ready ready)

section
variable {s : State} (rest : List Tok8) (hs : List HostAction)

theorem accepted_dfOutq_length :
    (s.accepted rest hs).dfOutq.length = (Config.deflateFn s.dfBuf).length + 1 := by
  rw [State.accepted, State.enterPhase_dfOutq, State.compress_dfOutq, compressedTokens,
    List.length_append, List.length_map, List.length_singleton]

theorem accepted_pendingOut (empty : s.QueuesEmpty) :
    (s.accepted rest hs).pendingOut = messageTokens s.dfBuf :=
  pendingOut_compress (s := { s with host := hs, inPort := rest }) empty

theorem messageTokens_length (p : List Byte) :
    (messageTokens p).length = 4 * ceilDiv3 (Config.deflateFn p).length + 1 := by
  rw [messageTokens, List.length_append, characterTokens_length, List.length_singleton]

theorem accepted_work (empty : s.QueuesEmpty) : (s.accepted rest hs).work =
    ((Config.deflateFn s.dfBuf).length + 1) +
      (4 * ceilDiv3 (Config.deflateFn s.dfBuf).length + 1) := by
  rw [State.work, accepted_dfOutq_length, accepted_pendingOut rest hs empty, messageTokens_length]

end

/-- A message that has reached IDLE has left whole. -/
theorem DrainRun.out_of_idle {n : Nat} {s t : State} (d : DrainRun n s t) (hs : s.Inv)
    (idle : t.phase = .idle) : t.out = s.out ++ s.pendingOut := by
  have owed := d.owed hs
  rwa [(d.inv hs).pendingOut_of_not_drain (by simp [idle]), List.append_nil] at owed

/-- Settles O45: from the state after `IN.END`, the counts of a run in DRAIN, and the run for a host that
takes. -/
theorem progressInExactSteps : Obligations.ProgressInExactSteps := by
  intro s rest hs n emits outs inv fault phase offered host
  have empty := inv.shape.queuesEmpty phase
  have first := step_of_offered_end fault phase offered host
  have invU := stepKeepsInvariant s _ inv first
  have owes := accepted_pendingOut rest hs empty
  refine ⟨s.accepted rest hs, first, fun m t quiet drains h => ?counts, fun quiet takes => ?ends⟩
  case counts =>
    have d := drainRun_of_run quiet drains h
    obtain ⟨df, out, all⟩ := d.counts invU
    rw [accepted_dfOutq_length] at df
    rw [owes, messageTokens_length] at out
    refine ⟨df, out, all, (d.phase rfl).imp_right fun idle => ?_⟩
    obtain ⟨noStream, noneOwed⟩ := Nat.add_eq_zero_iff.mp (work_eq_zero_of_idle (d.inv invU) idle)
    rw [noStream] at df
    rw [noneOwed] at out
    exact ⟨idle, df, out, owes ▸ d.out_of_idle invU idle⟩
  case ends =>
    obtain ⟨t, d, idle⟩ := drainRun_of_taking invU fault (.inl rfl) (accepted_work rest hs empty)
      quiet takes
    exact ⟨d.drain_before, t, d.run_eq, idle, owes ▸ d.out_of_idle invU idle⟩

/-! ## The whole run of a message (R91) -/

theorem run_add {m n : Nat} {s u : State} (h : run m s = .next u) : run (m + n) s = run n u := by
  induction m generalizing s with
  | zero => cases h; rw [Nat.zero_add]
  | succ m ih =>
    obtain ⟨v, first, others⟩ := step_of_run_succ h
    rw [Nat.add_right_comm, run_succ_of_step first, ih others]

/-- The block right after `IN.DATA b` is accepted, before the host's tokens `ts` and actions `hs`. -/
def State.received (s : State) (b : Byte) (ts : List Tok8) (hs : List HostAction) : State :=
  { s with host := hs, inPort := ts }.appendPayload b

theorem step_of_offered_data {s : State} {b : Byte} {ts : List Tok8} {hs : List HostAction}
    (fault : s.fault = false) (phase : s.phase ≠ .drain) (room : s.maxPayload ≠ some s.dfBuf.length)
    (offered : s.inPort = dataTok8 b :: ts) (host : s.host = .offer :: hs) :
    step s = .next (s.received b ts hs) := by
  have ready := (inReady_dataTok8_iff s b).mpr ⟨fault, phase, room⟩
  exact (step_of_offer_encode (i := .inData b) rfl host offered ready).trans
    (exec_inData_of_ready ready)

/-- A host that offers a message that fits has it accepted in as many steps as it has tokens. -/
theorem run_of_offered_message {p : List Byte} {s : State} {rest : List Tok8}
    {hs : List HostAction} (fault : s.fault = false) (phase : s.phase ≠ .drain)
    (fits : ∀ m, s.maxPayload = some m → s.dfBuf.length + p.length ≤ m)
    (offered : s.inPort = p.map dataTok8 ++ endTok8 :: rest)
    (host : s.host = List.replicate (p.length + 1) .offer ++ hs) :
    run (p.length + 1) s = .next ({ s with dfBuf := s.dfBuf ++ p }.accepted rest hs) := by
  induction p generalizing s with
  | nil =>
    rw [List.append_nil]
    exact run_succ_of_step (step_of_offered_end fault phase offered host) 0
  | cons b p ih =>
    have room : s.maxPayload ≠ some s.dfBuf.length := fun full => by
      have fit := fits _ full
      rw [List.length_cons] at fit
      omega
    have nextToken : s.inPort = dataTok8 b :: (p.map dataTok8 ++ endTok8 :: rest) := offered
    have nextAction : s.host = .offer :: (List.replicate (p.length + 1) .offer ++ hs) := host
    have first := step_of_offered_data fault phase room nextToken nextAction
    have stillFits : ∀ m, s.maxPayload = some m → (s.dfBuf ++ [b]).length + p.length ≤ m := by
      intro m capacity
      have fit := fits m capacity
      rw [List.length_cons] at fit
      rw [List.length_append, List.length_singleton]
      omega
    have others := ih (s := s.received b (p.map dataTok8 ++ endTok8 :: rest)
      (List.replicate (p.length + 1) .offer ++ hs)) fault (by simp [State.received]) stillFits rfl rfl
    rw [List.length_cons, run_succ_of_step first, List.append_cons s.dfBuf b p]
    exact others

/-- An IDLE block of the invariant with FAULT 0 is as after reset (R34). -/
theorem rst_eq_self_of_idle {s : State} (hs : s.Inv) (fault : s.fault = false)
    (idle : s.phase = .idle) : s.rst = s := by
  obtain ⟨cause, token⟩ := hs.faultFields.1 fault
  obtain ⟨payload, stream, cnt, queue⟩ := ((phaseShape_iff s).mp hs.shape).1 idle
  obtain ⟨b1, b2⟩ := hs.unheldBytes.1 cnt
  cases s
  simp_all [State.rst, State.reset]

theorem head?_drop_replicate_append {α : Type} {j n : Nat} (lt : j < n) (a : α) (l : List α) :
    ((List.replicate n a ++ l).drop j).head? = some a := by
  rw [List.head?_drop, List.getElem?_append_left (by simpa using lt), List.getElem?_replicate, if_pos lt]

/-- A host with as many takes as there is work left gets the message to its end. -/
theorem drainRun_of_replicate_take {s : State} {n : Nat} {hs : List HostAction} (inv : s.Inv)
    (fault : s.fault = false) (draining : s.phase = .drain) (work : s.work = n)
    (host : s.host = List.replicate n .take ++ hs) :
    ∃ t, DrainRun n s t ∧ t.phase = .idle ∧ t.host = hs := by
  have quiet : noReset n s := by
    rw [noReset, host, List.take_left' List.length_replicate]
    simp [List.mem_replicate]
  obtain ⟨t, d, idle⟩ := drainRun_of_taking inv fault (.inl draining) work quiet fun j v lt hv _ => by
    rw [run_host hv, host]
    exact head?_drop_replicate_append lt _ _
  exact ⟨t, d, idle, by rw [run_host d.run_eq, host, List.drop_left' List.length_replicate]⟩

/-- Settles O44: the message is accepted, then drained to IDLE; an IDLE state of the invariant is fixed by
the host's side and the capacity. -/
theorem everyPayloadIsEncoded : Obligations.EveryPayloadIsEncoded := by
  intro s p rest hs n k inv fault idle fits offered host
  have phase : s.phase ≠ .drain := by simp [idle]
  obtain ⟨payload, empty⟩ := ((phaseShape_iff s).mp inv.shape).1 idle
  rw [List.append_assoc] at host
  have input := run_of_offered_message fault phase (by simpa [payload] using fits) offered host
  rw [payload, List.nil_append] at input
  have invU := run_keeps (fun inv h => stepKeepsInvariant _ _ inv h) inv input
  obtain ⟨t, d, done, hosts⟩ := drainRun_of_replicate_take (n := k) invU fault rfl
    (accepted_work (s := { s with dfBuf := p }) _ _ empty) rfl
  have whole : run (p.length + 1 + k) s = .next t := (run_add input).trans d.run_eq
  have out : t.out = s.out ++ messageTokens p := by
    rw [d.out_of_idle invU done, accepted_pendingOut (s := { s with dfBuf := p }) _ _ empty]
    rfl
  have capacity : t.maxPayload = s.maxPayload :=
    run_keeps (P := fun v => v.maxPayload = s.maxPayload)
      (fun same h => (capacityIsFixed _ _ h).trans same) rfl whole
  have after : State.Inv { s with inPort := rest, host := hs, out := s.out ++ messageTokens p } := inv
  rw [whole, ← rst_eq_self_of_idle (d.inv invU) ((d.fault invU).trans fault) done,
    ← rst_eq_self_of_idle after fault idle, State.rst, d.inPort, out, hosts, capacity]
  rfl

end Sys2Proof.Machine
end
